-- ==== Sys2Proof/Word.lean ====
section
/-! DEFINITION. The plain value types of the core: bytes, words, 12-bit addresses and register numbers
(spec/00_scope.md R5, R7; spec/30_encoding.md R61). All values are unsigned. -/

namespace Sys2Proof

/-- An 8-bit value: a register, a memory byte, an immediate `nn` (R11, R40, R63). -/
abbrev Byte := BitVec 8

/-- A 16-bit value: an instruction word, `I`, `pc`, a stack slot (R13, R14, R15, R60). -/
abbrev Word := BitVec 16

/-- The 12-bit address immediate `nnn` (R61, R63). -/
abbrev Addr := BitVec 12

/-- A general register number 0 to 15; the 4-bit field can name no other (R11, R68). -/
abbrev Reg := Fin 16

/-- The flags register, register 15 (R12). -/
abbrev VF : Reg := 15

/-- The row count `n` of `Dxyn`, 0 to 15 (R61, R63, R138). -/
abbrev Height := Fin 16

end Sys2Proof
end

