-- ==== Sys2Proof/WellFormed.lean ====
section
/-! DEFINITION. What is well formed. An instruction of `Instr` always is (spec/30_encoding.md R68: "no validation
needed", and immediates have no illegal values), because each of its fields has exactly the values its bits can hold.
The check that can fail is on the 16-bit word: it is a defined word when a row of the opcode table R65 selects it, and
an undefined word otherwise (R66). The table is written here from R65 alone; the decoder of Sys2Proof/Decode.lean is
written from the decision of R64, and that the two agree is stated as an obligation. -/

namespace Sys2Proof

/-- A row of the opcode table: it selects the word `w` when `w AND mask == value` (R65). -/
structure OpRow where
  mnemonic : String
  mask : Word
  value : Word
  deriving DecidableEq, Repr

/-- The row selects the word (R65). -/
def OpRow.selects (r : OpRow) (w : Word) : Bool := w &&& r.mask == r.value

/-- Families 0 to 5 (R65). -/
def tableControl : List OpRow := [
  ⟨"CLS", 0xFFFF, 0x00E0⟩,
  ⟨"RET", 0xFFFF, 0x00EE⟩,
  ⟨"JP", 0xF000, 0x1000⟩,
  ⟨"CALL", 0xF000, 0x2000⟩,
  ⟨"SE_IMM", 0xF000, 0x3000⟩,
  ⟨"SNE_IMM", 0xF000, 0x4000⟩,
  ⟨"SE_REG", 0xF00F, 0x5000⟩]

/-- Families 6, 7 and 8 (R65). -/
def tableAlu : List OpRow := [
  ⟨"LD_IMM", 0xF000, 0x6000⟩,
  ⟨"ADD_IMM", 0xF000, 0x7000⟩,
  ⟨"LD_REG", 0xF00F, 0x8000⟩,
  ⟨"OR", 0xF00F, 0x8001⟩,
  ⟨"AND", 0xF00F, 0x8002⟩,
  ⟨"XOR", 0xF00F, 0x8003⟩,
  ⟨"ADD_REG", 0xF00F, 0x8004⟩,
  ⟨"SUB", 0xF00F, 0x8005⟩,
  ⟨"SHR", 0xF00F, 0x8006⟩,
  ⟨"SUBN", 0xF00F, 0x8007⟩,
  ⟨"SHL", 0xF00F, 0x800E⟩]

/-- Families 9 to E (R65). -/
def tableIndex : List OpRow := [
  ⟨"SNE_REG", 0xF00F, 0x9000⟩,
  ⟨"LD_I", 0xF000, 0xA000⟩,
  ⟨"JP_V0", 0xF000, 0xB000⟩,
  ⟨"RND", 0xF000, 0xC000⟩,
  ⟨"DRW", 0xF000, 0xD000⟩,
  ⟨"SKP", 0xF0FF, 0xE09E⟩,
  ⟨"SKNP", 0xF0FF, 0xE0A1⟩]

/-- Family F (R65). -/
def tableF : List OpRow := [
  ⟨"LD_VX_DT", 0xF0FF, 0xF007⟩,
  ⟨"LD_VX_K", 0xF0FF, 0xF00A⟩,
  ⟨"LD_DT_VX", 0xF0FF, 0xF015⟩,
  ⟨"LD_ST_VX", 0xF0FF, 0xF018⟩,
  ⟨"ADD_I", 0xF0FF, 0xF01E⟩,
  ⟨"LD_F", 0xF0FF, 0xF029⟩,
  ⟨"LD_B", 0xF0FF, 0xF033⟩,
  ⟨"ST_REGS", 0xF0FF, 0xF055⟩,
  ⟨"LD_REGS", 0xF0FF, 0xF065⟩]

/-- The opcode table of R65, in its order. -/
def opTable : List OpRow := tableControl ++ tableAlu ++ tableIndex ++ tableF

/-- A defined word: some row selects it. A word that no row selects is an undefined word (R66). -/
def definedWord (w : Word) : Bool := opTable.any (·.selects w)

/-- Every instruction of `Instr` is well formed: R68 leaves nothing to check once the fields have their widths. -/
abbrev Instr.WellFormed (_ : Instr) : Prop := True

end Sys2Proof
end

