-- ==== Sys2Proof/Decode.lean ====
section
/-! DEFINITION. From bits to an instruction and back (spec/30_encoding.md R60 to R68). The fields are taken out here,
once; the decoder is total and rejects an undefined word by the name of its family (R66); the encoder is written from
the same table of formats (R62, R65). -/

namespace Sys2Proof

/-- The families of R66 that hold undefined words. -/
inductive UndefinedFamily where
  | family0
  | family5
  | family8
  | family9
  | familyE
  | familyF
  deriving DecidableEq, Repr

/-- Why bytes do not decode to an instruction. -/
inductive DecodeReject where
  /-- Fewer than the two bytes of an instruction (R60). -/
  | truncated
  /-- The word matches no row of R65 (R66). -/
  | undefinedWord (f : UndefinedFamily)
  deriving DecidableEq, Repr

/-! ## Fields (R61) and byte order (R44, R60) -/

/-- `op = w[15:12]`, the family selector. -/
def opField (w : Word) : BitVec 4 := w.extractLsb' 12 4

/-- `x = w[11:8]`, a register index or a count. -/
def xField (w : Word) : Reg := (w.extractLsb' 8 4).toFin

/-- `y = w[7:4]`, a register index. -/
def yField (w : Word) : Reg := (w.extractLsb' 4 4).toFin

/-- `n = w[3:0]` as bits, the sub-operation selector of families 5, 8 and 9. -/
def subField (w : Word) : BitVec 4 := w.extractLsb' 0 4

/-- `n = w[3:0]` as the sprite height of `Dxyn`. -/
def nField (w : Word) : Height := (subField w).toFin

/-- `nn = w[7:0]`. -/
def nnField (w : Word) : Byte := w.extractLsb' 0 8

/-- `nnn = w[11:0]`. -/
def nnnField (w : Word) : Addr := w.extractLsb' 0 12

/-- The word of two consecutive bytes, the one at the lower address holding bits 15 to 8 (R44). -/
def wordOfBytes (hi lo : Byte) : Word := hi ++ lo

/-- Bits 15 to 8: the byte at the lower address (R44). -/
def hiByte (w : Word) : Byte := w.extractLsb' 8 8

/-- Bits 7 to 0: the byte at the higher address (R44). -/
def loByte (w : Word) : Byte := w.extractLsb' 0 8

/-! ## Decode (R64) -/

/-- Family 0: the whole word is matched, so `0x0000` and `0x01E0` are undefined (R64, R66, D7, D8). -/
def decodeFamily0 (w : Word) : Except DecodeReject Instr :=
  if w = 0x00E0 then .ok .cls
  else if w = 0x00EE then .ok .ret
  else .error (.undefinedWord .family0)

/-- Family 8: the low nibble selects the operation (R64). -/
def decodeFamily8 (w : Word) : Except DecodeReject Instr :=
  let x := xField w
  let y := yField w
  match subField w with
  | 0x0#4 => .ok (.ldReg x y)
  | 0x1#4 => .ok (.orReg x y)
  | 0x2#4 => .ok (.andReg x y)
  | 0x3#4 => .ok (.xorReg x y)
  | 0x4#4 => .ok (.addReg x y)
  | 0x5#4 => .ok (.sub x y)
  | 0x6#4 => .ok (.shr x y)
  | 0x7#4 => .ok (.subn x y)
  | 0xE#4 => .ok (.shl x y)
  | _ => .error (.undefinedWord .family8)

/-- Family E: the low byte selects the operation (R64). -/
def decodeFamilyE (w : Word) : Except DecodeReject Instr :=
  match nnField w with
  | 0x9E#8 => .ok (.skp (xField w))
  | 0xA1#8 => .ok (.sknp (xField w))
  | _ => .error (.undefinedWord .familyE)

/-- Family F: the low byte selects the operation (R64). -/
def decodeFamilyF (w : Word) : Except DecodeReject Instr :=
  let x := xField w
  match nnField w with
  | 0x07#8 => .ok (.ldVxDt x)
  | 0x0A#8 => .ok (.ldVxK x)
  | 0x15#8 => .ok (.ldDtVx x)
  | 0x18#8 => .ok (.ldStVx x)
  | 0x1E#8 => .ok (.addI x)
  | 0x29#8 => .ok (.ldF x)
  | 0x33#8 => .ok (.ldB x)
  | 0x55#8 => .ok (.stRegs x)
  | 0x65#8 => .ok (.ldRegs x)
  | _ => .error (.undefinedWord .familyF)

/-- The decoder: total on all 65536 words (R64). The last arm is `op = 0xF`, the only value left. -/
def decode (w : Word) : Except DecodeReject Instr :=
  match opField w with
  | 0x0#4 => decodeFamily0 w
  | 0x1#4 => .ok (.jp (nnnField w))
  | 0x2#4 => .ok (.call (nnnField w))
  | 0x3#4 => .ok (.seImm (xField w) (nnField w))
  | 0x4#4 => .ok (.sneImm (xField w) (nnField w))
  | 0x5#4 => if subField w = 0 then .ok (.seReg (xField w) (yField w)) else .error (.undefinedWord .family5)
  | 0x6#4 => .ok (.ldImm (xField w) (nnField w))
  | 0x7#4 => .ok (.addImm (xField w) (nnField w))
  | 0x8#4 => decodeFamily8 w
  | 0x9#4 => if subField w = 0 then .ok (.sneReg (xField w) (yField w)) else .error (.undefinedWord .family9)
  | 0xA#4 => .ok (.ldI (nnnField w))
  | 0xB#4 => .ok (.jpV0 (nnnField w))
  | 0xC#4 => .ok (.rnd (xField w) (nnField w))
  | 0xD#4 => .ok (.drw (xField w) (yField w) (nField w))
  | 0xE#4 => decodeFamilyE w
  | _ => decodeFamilyF w

/-- The decoder on bytes as they lie in memory, first byte first: the instruction of the first two and the bytes after
them (R60, R64). Total on any list. -/
def decodeBytes : List Byte → Except DecodeReject (Instr × List Byte)
  | hi :: lo :: rest =>
    match decode (wordOfBytes hi lo) with
    | .ok i => .ok (i, rest)
    | .error r => .error r
  | _ => .error .truncated

/-! ## Encode (R62, R65) -/

/-- A register index or a height as its 4 bits. -/
def nibble (r : Fin 16) : BitVec 4 := .ofFin r

/-- Format `NNN`: `op || nnn` (R62). -/
def encodeNNN (op : BitVec 4) (nnn : Addr) : Word := op ++ nnn

/-- Format `XNN`: `op || x || nn` (R62). -/
def encodeXNN (op : BitVec 4) (x : Reg) (nn : Byte) : Word := op ++ nibble x ++ nn

/-- Formats `XY` and `XYN`: `op || x || y || low nibble` (R62). -/
def encodeXYN (op : BitVec 4) (x y : Reg) (n : BitVec 4) : Word := op ++ nibble x ++ nibble y ++ n

/-- The word of an instruction (R62, R65). -/
def encode : Instr → Word
  | .cls => 0x00E0
  | .ret => 0x00EE
  | .jp nnn => encodeNNN 0x1 nnn
  | .call nnn => encodeNNN 0x2 nnn
  | .seImm x nn => encodeXNN 0x3 x nn
  | .sneImm x nn => encodeXNN 0x4 x nn
  | .seReg x y => encodeXYN 0x5 x y 0x0
  | .ldImm x nn => encodeXNN 0x6 x nn
  | .addImm x nn => encodeXNN 0x7 x nn
  | .ldReg x y => encodeXYN 0x8 x y 0x0
  | .orReg x y => encodeXYN 0x8 x y 0x1
  | .andReg x y => encodeXYN 0x8 x y 0x2
  | .xorReg x y => encodeXYN 0x8 x y 0x3
  | .addReg x y => encodeXYN 0x8 x y 0x4
  | .sub x y => encodeXYN 0x8 x y 0x5
  | .shr x y => encodeXYN 0x8 x y 0x6
  | .subn x y => encodeXYN 0x8 x y 0x7
  | .shl x y => encodeXYN 0x8 x y 0xE
  | .sneReg x y => encodeXYN 0x9 x y 0x0
  | .ldI nnn => encodeNNN 0xA nnn
  | .jpV0 nnn => encodeNNN 0xB nnn
  | .rnd x nn => encodeXNN 0xC x nn
  | .drw x y n => encodeXYN 0xD x y (nibble n)
  | .skp x => encodeXNN 0xE x 0x9E
  | .sknp x => encodeXNN 0xE x 0xA1
  | .ldVxDt x => encodeXNN 0xF x 0x07
  | .ldVxK x => encodeXNN 0xF x 0x0A
  | .ldDtVx x => encodeXNN 0xF x 0x15
  | .ldStVx x => encodeXNN 0xF x 0x18
  | .addI x => encodeXNN 0xF x 0x1E
  | .ldF x => encodeXNN 0xF x 0x29
  | .ldB x => encodeXNN 0xF x 0x33
  | .stRegs x => encodeXNN 0xF x 0x55
  | .ldRegs x => encodeXNN 0xF x 0x65

/-- The two bytes of an instruction in the order of their addresses (R44). -/
def encodeBytes (i : Instr) : List Byte := [hiByte (encode i), loByte (encode i)]

/-! ## The opcode table's numbering of bits -/

/-- The first word of an instruction given as `nbits` bits numbered as spec/opcode_table.json numbers them: bit 0 is
the least significant bit of the first word, and every bit from `nbits` on is 0. -/
def firstTableWord (nbits w : Nat) : Word := .ofNat 16 (w % 2 ^ nbits)

/-- What the decoder reads from those bits when they lie in memory (R44, R60). -/
def decodeTableWord (nbits w : Nat) : Option Instr :=
  match decodeBytes [hiByte (firstTableWord nbits w), loByte (firstTableWord nbits w)] with
  | .ok (i, _) => some i
  | .error _ => none

end Sys2Proof
end

