-- ==== Sys2Proof/Config.lean ====
section
/-! DEFINITION. The parameters of the core (spec/00_scope.md R5) and its one free value.
The fixed parameters are written here once; each has an equation that unfolds it to its number. The OPEN parameter
`FONT` is an argument, of type `Font`, of `initialize` and of a schedule (Sys2Proof/Machine/Transactions.lean); its default
is `defaultFont` of Sys2Proof/Machine/Ops.lean (log entry 1). The OPEN parameter `END_OF_RUN` is left to the user of the
model (Sys2Proof/Safety.lean, log entry 11), and so is the schedule of transactions
(Sys2Proof/Machine/Transactions.lean, log entry 8). -/

namespace Sys2Proof.Config

/-- `MEM_SIZE`: bytes of address space (R5, R40). -/
abbrev memSize : Nat := 4096
@[simp] theorem memSize_eq : memSize = 4096 := rfl

/-- `FONT_BASE`: address of the glyph table (R5, R41). -/
abbrev fontBase : Nat := 0
@[simp] theorem fontBase_eq : fontBase = 0 := rfl

/-- `FONT_SIZE`: bytes of the glyph table, 16 glyphs of 5 bytes (R5, R41, R42). -/
abbrev fontSize : Nat := 80
@[simp] theorem fontSize_eq : fontSize = 80 := rfl

/-- `GLYPH_BYTES`: bytes of one glyph (R5, R42). -/
abbrev glyphBytes : Nat := 5
@[simp] theorem glyphBytes_eq : glyphBytes = 5 := rfl

/-- `PROG_BASE`: the load address and the reset `pc` (R5, R14, R183). -/
abbrev progBase : Nat := 0x200
@[simp] theorem progBase_eq : progBase = 512 := rfl

/-- `MAX_PROG`: the largest program in bytes (R5, R182). -/
abbrev maxProg : Nat := 3584
@[simp] theorem maxProg_eq : maxProg = 3584 := rfl

/-- FREE VALUE. The byte that the `k`-th draw of the random source gives (R112, D18, U11): any value 0 to 255 under no
law. It has no body, so nothing can be proved about which byte it is, and a statement about `Cxnn` holds for each.
Log entry 2. -/
opaque randByte : Nat → Byte

end Sys2Proof.Config

namespace Sys2Proof

/-- A value of the OPEN parameter `FONT[0..79]`: any 80 bytes (R5, R27, R42, D22). -/
abbrev Font := Vector Byte Config.fontSize

end Sys2Proof
end

