-- ==== Sys2Proof/Machine/State.lean ====
section
/-! DEFINITION. The state of the core, as plain data: every cell of spec/10_state.md R10 and two fields of the model's
own (`draws`, `diags`), the state right after reset, and the reasons a step could stop. -/

namespace Sys2Proof.Machine

/-- The run state of the engine (R22). -/
inductive RunState where
  | running
  | awaitKey
  | faulted
  deriving DecidableEq, Repr

/-- What stopped the core (R23, R151); `none` while no fault has been raised. -/
inductive FaultCause where
  | none
  | stackOverflow
  | stackUnderflow
  | memBoundsFetch
  | memBoundsData
  | loadTooLarge
  deriving DecidableEq, Repr

/-- The three fields of `fault_info` (R23). -/
structure FaultInfo where
  faultPc : Word
  faultWord : Word
  faultAddr : BitVec 17
  deriving DecidableEq, Repr

/-- The codes of diagnostic events; there is one (R155). -/
inductive DiagCode where
  | unknownOpcode
  deriving DecidableEq, Repr

/-- A diagnostic event `Diag(code, pc, word)` (R155). -/
structure Diag where
  code : DiagCode
  pc : Word
  word : Word
  deriving DecidableEq, Repr

/-- The framebuffer `fb[px][py]`: 64 columns of 32 cells, `true` = lit (R18, R130). -/
abbrev Framebuffer := Vector (Vector Bool 32) 64

/-- The address space as the bytes that differ from what an unlisted address reads as, in rising order of address
(R40; the canonical form is `Memory.wf` and the unlisted byte `Memory.resetByte`, both in Sys2Proof/Machine/Ops.lean). -/
abbrev Memory := List Host.Cell

/-- The complete state of the core (R10). -/
structure State where
  /-- `V[0..15]`; `VF` is entry 15 (R11, R12). -/
  v : Vector Byte 16
  /-- `I` (R13). -/
  i : Word
  /-- `pc`: the address of the next instruction to fetch, and during an instruction that instruction's own (R14). -/
  pc : Word
  /-- `stack[0..15]` (R15). -/
  stack : Vector Word 16
  /-- `sp`: the number of occupied slots, 0 to 16 (R15). -/
  sp : Fin 17
  /-- `delay` (R16). -/
  delay : Byte
  /-- `sound` (R17). -/
  sound : Byte
  /-- `fb` (R18). -/
  fb : Framebuffer
  /-- `mem` (R19, R40). -/
  mem : Memory
  /-- `key`: `none` is `NONE`, `some k` is `KEY(k)` (R20). -/
  key : Option Byte
  /-- `ir`: the last fetched word; the suspended `Fx0A` while awaiting a key (R21). -/
  ir : Word
  /-- `run` (R22). -/
  run : RunState
  /-- `fault_cause` (R23). -/
  faultCause : FaultCause
  /-- `fault_info` (R23). -/
  faultInfo : FaultInfo
  /-- `fb_dirty` (R24). -/
  fbDirty : Bool
  /-- The model's own: how many random bytes have been drawn (R112; log entry 2). -/
  draws : Nat
  /-- The model's own: the diagnostic events emitted, oldest first (R155; log entry 4). -/
  diags : List Diag
  deriving DecidableEq, Repr

/-- The state right after `initialize` of an empty program, with the default value of the parameter `FONT` (R26, R180;
log entry 1): memory lists nothing, so it reads as the font and zeros. For every other value it is `State.resetWith`
of Sys2Proof/Machine/Ops.lean. `draws` and `diags` start at values of the model's own (log entries 2 and 4). -/
def State.reset : State where
  v := .replicate 16 0
  i := 0
  pc := 0x200
  stack := .replicate 16 0
  sp := 0
  delay := 0
  sound := 0
  fb := .replicate 64 (.replicate 32 false)
  mem := []
  key := none
  ir := 0
  run := .running
  faultCause := .none
  faultInfo := ⟨0, 0, 0⟩
  fbDirty := false
  draws := 0
  diags := []

/-- The reasons a step stops with a fault OUTCOME: there is none. The spec gives each machine fault its entry (R152:
`run`, `fault_cause` and `fault_info` are written and nothing else changes) and gives `step()` in `FAULTED` an effect
(R87: nothing changes), so every machine fault is a next state (log entry 3). Safe: nothing the hardware does is left
out by it. -/
inductive Fault where
  deriving DecidableEq, Repr

/-- The reasons a step is refused. -/
inductive Refusal where
  /-- Raised by an arm of `exec` for an instruction that has no meaning yet; safe. No arm raises it now. -/
  | notModelled (mnemonic : String)
  deriving DecidableEq, Repr

/-- What a meaning answers. -/
abbrev Result := Host.Outcome State Fault Refusal

end Sys2Proof.Machine
end

