-- ==== Sys2Proof/Machine/Ops.lean ====
section
/-! DEFINITION. The named operations every meaning is written with: the writes of each cell of State, memory, the
access check, raising a machine fault, emitting a diagnostic, drawing a random byte, the call stack, the moves of `pc`
and the fetch. -/

namespace Sys2Proof.Machine

/-! ## One write for each cell -/

def State.setV (s : State) (v : Vector Byte 16) : State := { s with v := v }
def State.setI (s : State) (a : Word) : State := { s with i := a }
def State.setPc (s : State) (a : Word) : State := { s with pc := a }
def State.setStack (s : State) (k : Vector Word 16) : State := { s with stack := k }
def State.setSp (s : State) (n : Fin 17) : State := { s with sp := n }
def State.setDelay (s : State) (b : Byte) : State := { s with delay := b }
def State.setSound (s : State) (b : Byte) : State := { s with sound := b }
def State.setFb (s : State) (f : Framebuffer) : State := { s with fb := f }
def State.setMem (s : State) (m : Memory) : State := { s with mem := m }
def State.setKey (s : State) (k : Option Byte) : State := { s with key := k }
def State.setIr (s : State) (w : Word) : State := { s with ir := w }
def State.setRun (s : State) (r : RunState) : State := { s with run := r }
def State.setFaultCause (s : State) (c : FaultCause) : State := { s with faultCause := c }
def State.setFaultInfo (s : State) (f : FaultInfo) : State := { s with faultInfo := f }
def State.setFbDirty (s : State) (b : Bool) : State := { s with fbDirty := b }
def State.setDraws (s : State) (n : Nat) : State := { s with draws := n }
def State.setDiags (s : State) (d : List Diag) : State := { s with diags := d }

/-! ## General registers (R8, R11): none is hardwired -/

/-- `V[r]`. -/
def State.reg (s : State) (r : Reg) : Byte := s.v[r]

/-- `V[r] <- b`. -/
def State.setReg (s : State) (r : Reg) (b : Byte) : State := s.setV (s.v.set r b)

/-! ## The font and the reset content of memory (R41, R42, R180) -/

/-- Glyph `k` of the spec's DEFAULT value of the OPEN parameter `FONT` (R42, D22). PRESUMED, log entry 1: the spec gives
these bytes from general knowledge. It decides only which
bytes memory need not list: `FONT` is an argument of `initialize`, whose memory reads as that argument whatever the default. -/
def defaultGlyph : Nat → List Byte
  | 0x0 => [0xF0, 0x90, 0x90, 0x90, 0xF0]
  | 0x1 => [0x20, 0x60, 0x20, 0x20, 0x70]
  | 0x2 => [0xF0, 0x10, 0xF0, 0x80, 0xF0]
  | 0x3 => [0xF0, 0x10, 0xF0, 0x10, 0xF0]
  | 0x4 => [0x90, 0x90, 0xF0, 0x10, 0x10]
  | 0x5 => [0xF0, 0x80, 0xF0, 0x10, 0xF0]
  | 0x6 => [0xF0, 0x80, 0xF0, 0x90, 0xF0]
  | 0x7 => [0xF0, 0x10, 0x20, 0x40, 0x40]
  | 0x8 => [0xF0, 0x90, 0xF0, 0x90, 0xF0]
  | 0x9 => [0xF0, 0x90, 0xF0, 0x10, 0xF0]
  | 0xA => [0xF0, 0x90, 0xF0, 0x90, 0x90]
  | 0xB => [0xE0, 0x90, 0xE0, 0x90, 0xE0]
  | 0xC => [0xF0, 0x80, 0x80, 0x80, 0xF0]
  | 0xD => [0xE0, 0x90, 0x90, 0x90, 0xE0]
  | 0xE => [0xF0, 0x80, 0xF0, 0x80, 0xF0]
  | 0xF => [0xF0, 0x80, 0xF0, 0x80, 0x80]
  | _ => []

/-- Byte `a` of the default font: glyph `k` occupies the 5 bytes from offset `5k` (R42). -/
def defaultFontByte (a : Nat) : Byte := (defaultGlyph (a / Config.glyphBytes)).getD (a % Config.glyphBytes) 0

/-- The default value of the parameter `FONT` (R5, R42, D22; log entry 1). -/
def defaultFont : Font := .ofFn fun a => defaultFontByte a.val

/-- What an unlisted address reads as: the reset content with the default font at 0 to 79 and zero above (R41, R180).
A memory that holds another font lists the bytes in which it differs. -/
def Memory.resetByte (a : Nat) : Byte := if a < Config.fontSize then defaultFontByte a else 0

/-! ## Memory: a list in one canonical form -/

/-- The cells lie at rising addresses from `lo` on, inside the address space, and none holds its reset byte. -/
def Memory.wfFrom (lo : Nat) : Memory → Bool
  | [] => true
  | (a, b) :: rest =>
    decide (lo ≤ a) && decide (a < Config.memSize) && (b != Memory.resetByte a) && Memory.wfFrom (a + 1) rest

/-- The canonical form of memory. -/
def Memory.wf (m : Memory) : Bool := Memory.wfFrom 0 m

/-- `MemRead(a, 1)` (R43). The spec defines it for `a ≤ 4095` only, and the meanings reach it only through an access
that `inSpace` has checked. -/
def Memory.read : Memory → Nat → Byte
  | [], a => Memory.resetByte a
  | (k, b) :: rest, a => if a = k then b else Memory.read rest a

/-- The cell `(a, b)` in front of the cells above `a`, unless `b` is what `a` reads as unlisted. -/
def Memory.putFront (a : Nat) (b : Byte) (rest : Memory) : Memory :=
  if b = Memory.resetByte a then rest else (a, b) :: rest

/-- `MemWrite(a, 1, b)` (R43), keeping the canonical form. -/
def Memory.write : Memory → Nat → Byte → Memory
  | [], a, b => Memory.putFront a b []
  | (k, c) :: rest, a, b =>
    if k < a then (k, c) :: Memory.write rest a b
    else if k = a then Memory.putFront a b rest
    else Memory.putFront a b ((k, c) :: rest)

/-- The `n` bytes from `base` on, in rising order of address (R44). -/
def Memory.readBytes (m : Memory) (base : Nat) : Nat → List Byte
  | 0 => []
  | n + 1 => m.read base :: Memory.readBytes m (base + 1) n

/-- The bytes stored at `base`, `base + 1`, … (R44). The order of the byte accesses inside one instruction is not
observable (R46); the last byte is written first. -/
def Memory.writeBytes (m : Memory) (base : Nat) : List Byte → Memory
  | [] => m
  | b :: bs => (Memory.writeBytes m (base + 1) bs).write base b

/-- The state after `initialize` of an empty program in a core whose parameter `FONT` is `font` (R26, R180).
`State.reset` is this state for the default font. -/
def State.resetWith (font : Font) : State :=
  State.reset.setMem (State.reset.mem.writeBytes Config.fontBase font.toList)

/-! ## The access check (R43) -/

/-- The access range `base` to `base + len − 1` lies wholly in the address space; an empty range always does. Addresses
are not reduced modulo anything (R43). -/
def inSpace (base len : Nat) : Bool := len == 0 || base + len ≤ Config.memSize

/-- The bytes of an access range, when all of it is in the address space. -/
def State.loadBlock (s : State) (base len : Nat) : Option (List Byte) :=
  if inSpace base len then some (s.mem.readBytes base len) else none

/-- The bytes stored, when all of the access range is in the address space; there is no partial store (R43). -/
def State.storeBlock (s : State) (base : Nat) (bytes : List Byte) : Option State :=
  if inSpace base bytes.length then some (s.setMem (s.mem.writeBytes base bytes)) else none

/-! ## Taking a machine fault (R152). There is no return from one (R153). -/

/-- `raise F(info)`: the core stops, the cause and the record are written, and nothing else changes (R152). -/
def State.raise (s : State) (cause : FaultCause) (info : FaultInfo) : State :=
  ((s.setRun .faulted).setFaultCause cause).setFaultInfo info

/-- The lowest address of an access range from `a` on that lies outside the address space: `max(a, 4096)` (R151). -/
def faultAddress (a : Word) : BitVec 17 := .ofNat 17 (max a.toNat Config.memSize)

/-- `MEM_BOUNDS_DATA` of the instruction in `ir` (R151). -/
def State.raiseData (s : State) : State := s.raise .memBoundsData ⟨s.pc, s.ir, faultAddress s.i⟩

/-- `MEM_BOUNDS_FETCH` (R81, R151). -/
def State.raiseFetch (s : State) : State := s.raise .memBoundsFetch ⟨s.pc, 0, faultAddress s.pc⟩

/-! ## Diagnostics and random bytes -/

/-- `emit Diag(code, pc, word)` (R8, R155). -/
def State.emit (s : State) (d : Diag) : State := s.setDiags (s.diags ++ [d])

/-- `draw rand8()`: the byte of this draw, a free value (R8, R112; log entry 2). -/
def State.drawnByte (s : State) : Byte := Config.randByte s.draws

/-- The byte has been drawn; the next draw gives another. -/
def State.countDraw (s : State) : State := s.setDraws (s.draws + 1)

/-! ## Moves of `pc` (R88). The 16-bit sums cannot overflow in a run (R14; log entry 6). -/

/-- `pc <- pc + k`. -/
def State.advance (s : State) (k : Word) : State := s.setPc (s.pc + k)

/-- `pc <- pc + 2`, the next instruction. -/
def State.stepPc (s : State) : State := s.advance 2

/-- `if c then pc <- pc + 4 else pc <- pc + 2` (R89). -/
def State.skipIf (s : State) (c : Bool) : State := s.advance (if c then 4 else 2)

/-! ## The call stack (R15) -/

/-- `stack[sp] <- pc; sp <- sp + 1`, when a slot is free. -/
def State.push (s : State) : Option State :=
  if h : s.sp.val < 16 then
    some ((s.setStack (s.stack.set s.sp.val s.pc h)).setSp ⟨s.sp.val + 1, by omega⟩)
  else none

/-- `sp <- sp − 1; t <- stack[sp]`, when a slot is occupied. The slot keeps its content. -/
def State.pop (s : State) : Option (Word × State) :=
  if h : 0 < s.sp.val then
    some (s.stack[s.sp.val - 1]'(by omega), s.setSp ⟨s.sp.val - 1, by omega⟩)
  else none

/-! ## Fetch (R81) -/

/-- `Fetch16(pc)`, when both bytes are in the address space. -/
def State.fetch (s : State) : Option Word :=
  if inSpace s.pc.toNat 2 then some (wordOfBytes (s.mem.read s.pc.toNat) (s.mem.read (s.pc.toNat + 1))) else none

/-! ## Placing a word where the next step fetches it (for `State.withFetchWord`) -/

/-- The state in which the next step fetches: `RUNNING`, and `pc` at the reset entry point if nothing can be fetched at
it. A state that runs at a fetchable `pc` is left as it is. -/
def State.readyToFetch (s : State) : State :=
  (s.setRun .running).setPc (if inSpace s.pc.toNat 2 then s.pc else .ofNat 16 Config.progBase)

/-- The word's two bytes stored at `pc` and `pc + 1`, high byte first (R44). -/
def State.placeWord (s : State) (w : Word) : State :=
  s.setMem (s.mem.writeBytes s.pc.toNat [hiByte w, loByte w])

end Sys2Proof.Machine
end

