-- ==== Sys2Proof/Machine/Flags.lean ====
section
/-! DEFINITION. Every flag computation of the core (spec/10_state.md R12): `VF` is its only flag, and what an
instruction writes to it is always 0 or 1. The collision flag is computed with the pixels, in
Sys2Proof/Machine/Display.lean. -/

namespace Sys2Proof.Machine

/-- The byte written to `VF`: exactly 0 or 1 (R12). -/
def flagByte (c : Bool) : Byte := if c then 1 else 0

/-- Carry out of bit 7 of `a + b`, on the widened sum (R107). -/
def carryOut (a b : Byte) : Bool := decide (255 < a.toNat + b.toNat)

/-- No borrow in `a − b` (R108, R110). -/
def noBorrow (a b : Byte) : Bool := decide (b.toNat ≤ a.toNat)

/-- The bit that `b >> 1` shifts out (R109). -/
def shiftedOutRight (b : Byte) : Bool := b.getLsbD 0

/-- The bit that `b << 1` shifts out of 8 bits (R111). -/
def shiftedOutLeft (b : Byte) : Bool := b.getLsbD 7

/-- The flag is written first and the result after it, so that with `x = 15` the result stays (R100, D12). -/
def State.writeFlagThenResult (s : State) (x : Reg) (flag : Bool) (result : Byte) : State :=
  (s.setReg VF (flagByte flag)).setReg x result

end Sys2Proof.Machine
end

