-- ==== Sys2Proof/Machine/Operands.lean ====
section
/-! DEFINITION. Every operand form of the instruction set (spec/30_encoding.md R63): zero-extended immediates, the
index register as a base address (spec/43_index_memory.md R120), the block of registers `V[0]` to `V[x]`, the decimal
digits of a byte, and the comparison with the input latch (spec/45_keypad_timers.md R140). A register operand is
`State.reg`. -/

namespace Sys2Proof.Machine

/-- `zext_16(nnn)` (R63). -/
def zextAddr (nnn : Addr) : Word := nnn.setWidth 16

/-- `zext_16` of a byte (R63). -/
def zextByte (b : Byte) : Word := b.setWidth 16

/-- The base address of an access through `I` (R120). -/
def State.base (s : State) : Nat := s.i.toNat

/-- The number of registers `V[0]` to `V[x]`: `x + 1`, inclusive (R125, R126). -/
def regCount (x : Reg) : Nat := x.val + 1

/-- The bytes of `V[0]` to `V[x]` in rising order (R125). -/
def State.regsUpTo (s : State) (x : Reg) : List Byte := s.v.toList.take (regCount x)

/-- `V[r] <- bytes[r]` for each `r` below the number of bytes; the registers above keep their values (R126). -/
def State.loadRegs (s : State) (bytes : List Byte) : State :=
  s.setV (.ofFn fun r : Fin 16 => (bytes[r.val]?).getD s.v[r])

/-- The decimal digits of a byte: hundreds, tens, ones (R124). -/
def bcdDigits (b : Byte) : List Byte :=
  [.ofNat 8 (b.toNat / 100), .ofNat 8 (b.toNat / 10 % 10), .ofNat 8 (b.toNat % 10)]

/-- `key == V[x]`: false for `NONE`, else the whole bytes are compared (R140). -/
def keyIs (key : Option Byte) (b : Byte) : Bool :=
  match key with
  | some k => k == b
  | none => false

end Sys2Proof.Machine
end

