-- ==== Sys2Proof/Machine/Alu.lean ====
section
/-! DEFINITION. The register load, ALU and random instructions (spec/42_alu.md R100 to R113). Operands are read from
the state before the instruction (R100). -/

namespace Sys2Proof.Machine

/-- `6xnn` (R101). -/
def execLdImm (x : Reg) (nn : Byte) (s : State) : Result := .next (s.setReg x nn).stepPc

/-- `7xnn`: wraps modulo 256, no flag (R102). -/
def execAddImm (x : Reg) (nn : Byte) (s : State) : Result := .next (s.setReg x (s.reg x + nn)).stepPc

/-- `8xy0` (R103). -/
def execLdReg (x y : Reg) (s : State) : Result := .next (s.setReg x (s.reg y)).stepPc

/-- `8xy1` (R104). -/
def execOrReg (x y : Reg) (s : State) : Result := .next (s.setReg x (s.reg x ||| s.reg y)).stepPc

/-- `8xy2` (R105). -/
def execAndReg (x y : Reg) (s : State) : Result := .next (s.setReg x (s.reg x &&& s.reg y)).stepPc

/-- `8xy3` (R106). -/
def execXorReg (x y : Reg) (s : State) : Result := .next (s.setReg x (s.reg x ^^^ s.reg y)).stepPc

/-- `8xy4`: add with carry flag (R107). -/
def execAddReg (x y : Reg) (s : State) : Result :=
  .next (s.writeFlagThenResult x (carryOut (s.reg x) (s.reg y)) (s.reg x + s.reg y)).stepPc

/-- `8xy5`: `V[x] − V[y]` with no-borrow flag (R108). -/
def execSub (x y : Reg) (s : State) : Result :=
  .next (s.writeFlagThenResult x (noBorrow (s.reg x) (s.reg y)) (s.reg x - s.reg y)).stepPc

/-- `8xy6`: `V[y]` is the value shifted (R109). -/
def execShr (x y : Reg) (s : State) : Result :=
  .next (s.writeFlagThenResult x (shiftedOutRight (s.reg y)) (s.reg y >>> 1)).stepPc

/-- `8xy7`: `V[y] − V[x]` with no-borrow flag (R110). -/
def execSubn (x y : Reg) (s : State) : Result :=
  .next (s.writeFlagThenResult x (noBorrow (s.reg y) (s.reg x)) (s.reg y - s.reg x)).stepPc

/-- `8xyE`: `V[y]` is the value shifted (R111). -/
def execShl (x y : Reg) (s : State) : Result :=
  .next (s.writeFlagThenResult x (shiftedOutLeft (s.reg y)) (s.reg y <<< 1)).stepPc

/-- `Cxnn` once the byte `r` has been drawn (R112). -/
def rndWith (r : Byte) (x : Reg) (nn : Byte) (s : State) : State := (s.setReg x (r &&& nn)).stepPc

/-- `Cxnn`: draws one byte, a free value of this step (R112, D18; log entry 2). -/
def execRnd (x : Reg) (nn : Byte) (s : State) : Result := .next (rndWith s.drawnByte x nn s.countDraw)

end Sys2Proof.Machine
end

