-- ==== Sys2Proof/Machine/Control.lean ====
section
/-! DEFINITION. The control transfer instructions (spec/41_control_flow.md R90 to R99) and the undefined word
(spec/40_cycle.md R84). -/

namespace Sys2Proof.Machine

/-- `00EE`: `pc` is set to 2 past the popped address, that of the call; with an empty stack `STACK_UNDERFLOW` (R91). -/
def execRet (s : State) : Result :=
  match s.pop with
  | some (t, s') => .next (s'.setPc (t + 2))
  | none => .next (s.raise .stackUnderflow ⟨s.pc, 0x00EE, 0⟩)

/-- `1nnn` (R92). -/
def execJp (nnn : Addr) (s : State) : Result := .next (s.setPc (zextAddr nnn))

/-- `2nnn`: the address of the call itself is pushed; with a full stack `STACK_OVERFLOW` and no slot is written (R93). -/
def execCall (nnn : Addr) (s : State) : Result :=
  match s.push with
  | some s' => .next (s'.setPc (zextAddr nnn))
  | none => .next (s.raise .stackOverflow ⟨s.pc, s.ir, 0⟩)

/-- `3xnn` (R94). -/
def execSeImm (x : Reg) (nn : Byte) (s : State) : Result := .next (s.skipIf (s.reg x == nn))

/-- `4xnn` (R95). -/
def execSneImm (x : Reg) (nn : Byte) (s : State) : Result := .next (s.skipIf (s.reg x != nn))

/-- `5xy0` (R96). -/
def execSeReg (x y : Reg) (s : State) : Result := .next (s.skipIf (s.reg x == s.reg y))

/-- `9xy0` (R97). -/
def execSneReg (x y : Reg) (s : State) : Result := .next (s.skipIf (s.reg x != s.reg y))

/-- `Bnnn`: the offset register is always `V[0]`; the sum is not reduced to 12 bits (R98). -/
def execJpV0 (nnn : Addr) (s : State) : Result := .next (s.setPc (zextByte (s.reg 0) + zextAddr nnn))

/-- An undefined word, in `ir`: one diagnostic and `pc + 2`, never a fault (R84, R155). -/
def execUndefined (s : State) : Result := .next (s.emit ⟨.unknownOpcode, s.pc, s.ir⟩).stepPc

end Sys2Proof.Machine
end

