-- ==== Sys2Proof/Machine/Display.lean ====
section
/-! DEFINITION. The framebuffer controller and its two instructions (spec/44_display.md R130 to R138). -/

namespace Sys2Proof.Machine

/-- A cell of the framebuffer: column `px`, row `py` (R130). -/
abbrev Pixel := Fin 64 × Fin 32

/-- `fb[px][py]`. -/
def litAt (fb : Framebuffer) (p : Pixel) : Bool := (fb[p.1])[p.2]

/-- `fb[px][py] <- fb[px][py] XOR 1`. -/
def flipAt (fb : Framebuffer) (p : Pixel) : Framebuffer := fb.set p.1 ((fb[p.1]).set p.2 (!litAt fb p))

/-- The framebuffer with every cell 0 (R131). -/
def clearFb : Framebuffer := .replicate 64 (.replicate 32 false)

/-- `(x0 + c) mod 64`, the sum formed without 8-bit wrap (R134). -/
def wrapColumn (x0 : Byte) (c : Nat) : Fin 64 := .ofNat 64 (x0.toNat + c)

/-- `(y0 + r) mod 32`, the sum formed without 8-bit wrap (R134). -/
def wrapRow (y0 : Byte) (r : Nat) : Fin 32 := .ofNat 32 (y0.toNat + r)

/-- The columns 0 to 7 in which a sprite row has its bit set; bit 7 is column 0 (R133). -/
def rowColumns (b : Byte) : List Nat := (List.range 8).filter (fun c => b.getLsbD (7 - c))

/-- The cells that the set bits of sprite row `r` land on, column 0 first (R132, R133, R134). -/
def rowPixels (x0 y0 : Byte) (r : Nat) (b : Byte) : List Pixel :=
  (rowColumns b).map (fun c => (wrapColumn x0 c, wrapRow y0 r))

/-- The cells that the set bits of a sprite land on; its rows are numbered from `r` on (R132). -/
def spritePixels (x0 y0 : Byte) (r : Nat) : List Byte → List Pixel
  | [] => []
  | b :: bs => rowPixels x0 y0 r b ++ spritePixels x0 y0 (r + 1) bs

/-- One set sprite bit: the cell is toggled, and the collision is noted if it was lit (R132). -/
def blitPixel (acc : Framebuffer × Bool) (p : Pixel) : Framebuffer × Bool :=
  (flipAt acc.1 p, acc.2 || litAt acc.1 p)

/-- All of a sprite's set bits, from no collision on (R132). -/
def blit (fb : Framebuffer) (ps : List Pixel) : Framebuffer × Bool := ps.foldl blitPixel (fb, false)

/-- `00E0` (R131, R136). -/
def execCls (s : State) : Result := .next ((s.setFb clearFb).setFbDirty true).stepPc

/-- The draw of the rows `bytes` at the base coordinates `x0`, `y0`: pixels, `VF` = collision, `fb_dirty` (R132, R136). -/
def State.drawRows (s : State) (x0 y0 : Byte) (bytes : List Byte) : State :=
  let drawn := blit s.fb (spritePixels x0 y0 0 bytes)
  ((s.setFb drawn.1).setReg VF (flagByte drawn.2)).setFbDirty true

/-- `Dxyn`: the base coordinates are sampled first, then the range of all `n` rows is checked, then the sprite is drawn;
with `n = 0` there is no row, no check and `VF` becomes 0 (R132, R138, D14, D15). -/
def execDrw (x y : Reg) (n : Height) (s : State) : Result :=
  match s.loadBlock s.base n.val with
  | some bytes => .next (s.drawRows (s.reg x) (s.reg y) bytes).stepPc
  | none => .next s.raiseData

end Sys2Proof.Machine
end

