-- ==== Sys2Proof/Machine/Index.lean ====
section
/-! DEFINITION. The index register and memory instructions (spec/43_index_memory.md R120 to R126). An access range that
is not wholly in the address space raises `MEM_BOUNDS_DATA` before anything changes (spec/20_memory.md R43). -/

namespace Sys2Proof.Machine

/-- `Annn` (R121). -/
def execLdI (nnn : Addr) (s : State) : Result := .next (s.setI (zextAddr nnn)).stepPc

/-- `Fx1E`: wraps modulo 65536, no flag, no fault (R122, D13). -/
def execAddI (x : Reg) (s : State) : Result := .next (s.setI (s.i + zextByte (s.reg x))).stepPc

/-- `Fx29`: the whole byte times 5 (R123). -/
def execLdF (x : Reg) (s : State) : Result :=
  .next (s.setI (zextByte (s.reg x) * .ofNat 16 Config.glyphBytes)).stepPc

/-- `Fx33`: the three decimal digits at `I`, `I + 1`, `I + 2` (R124). -/
def execLdB (x : Reg) (s : State) : Result :=
  match s.storeBlock s.base (bcdDigits (s.reg x)) with
  | some s' => .next s'.stepPc
  | none => .next s.raiseData

/-- `I <- I + x + 1` (R125, R126). -/
def State.advanceIndex (s : State) (x : Reg) : State := s.setI (s.i + .ofNat 16 (regCount x))

/-- `Fx55`: `V[0]` to `V[x]` stored from `I` on, and `I` advanced past them (R125). -/
def execStRegs (x : Reg) (s : State) : Result :=
  match s.storeBlock s.base (s.regsUpTo x) with
  | some s' => .next (s'.advanceIndex x).stepPc
  | none => .next s.raiseData

/-- `Fx65`: `V[0]` to `V[x]` loaded from `I` on, and `I` advanced past them (R126). -/
def execLdRegs (x : Reg) (s : State) : Result :=
  match s.loadBlock s.base (regCount x) with
  | some bytes => .next ((s.loadRegs bytes).advanceIndex x).stepPc
  | none => .next s.raiseData

end Sys2Proof.Machine
end

