-- ==== Sys2Proof/Machine/Keypad.lean ====
section
/-! DEFINITION. The keypad instructions (spec/45_keypad_timers.md R140 to R143) and the resumption of a suspended
`Fx0A` (spec/40_cycle.md R86). -/

namespace Sys2Proof.Machine

/-- `Ex9E` (R141). -/
def execSkp (x : Reg) (s : State) : Result := .next (s.skipIf (keyIs s.key (s.reg x)))

/-- `ExA1` (R142). -/
def execSknp (x : Reg) (s : State) : Result := .next (s.skipIf (!keyIs s.key (s.reg x)))

/-- The one effect of `Fx0A`, whether fetched or resumed: with a key latched it completes, otherwise the core awaits a
key and `pc` stays (R143). -/
def waitForKey (x : Reg) (s : State) : State :=
  match s.key with
  | some k => ((s.setReg x k).stepPc).setRun .running
  | none => s.setRun .awaitKey

/-- `Fx0A` (R143, D16). -/
def execLdVxK (x : Reg) (s : State) : Result := .next (waitForKey x s)

/-- `step()` in state `AWAIT_KEY`: no fetch, the `x` field is that of the word in `ir` (R86). -/
def resumeAwaitKey (s : State) : Result := .next (waitForKey (xField s.ir) s)

end Sys2Proof.Machine
end

