-- ==== Sys2Proof/Machine/Timers.lean ====
section
/-! DEFINITION. The timer instructions (spec/45_keypad_timers.md R144 to R146) and the tick of both timers
(spec/60_exceptions.md R159, R160). -/

namespace Sys2Proof.Machine

/-- `Fx07` (R144). -/
def execLdVxDt (x : Reg) (s : State) : Result := .next (s.setReg x s.delay).stepPc

/-- `Fx15` (R145). -/
def execLdDtVx (x : Reg) (s : State) : Result := .next (s.setDelay (s.reg x)).stepPc

/-- `Fx18` (R146). -/
def execLdStVx (x : Reg) (s : State) : Result := .next (s.setSound (s.reg x)).stepPc

/-- One timer at a tick: down by 1 when greater than 0 (R159). -/
def tickDown (b : Byte) : Byte := if b = 0 then 0 else b - 1

/-- `tick_timers()`: both timers, in every run state, and nothing else (R159). -/
def tickTimers (s : State) : State := (s.setDelay (tickDown s.delay)).setSound (tickDown s.sound)

end Sys2Proof.Machine
end

