-- ==== Sys2Proof/Machine/Step.lean ====
section
/-! DEFINITION. One call of `step()` (spec/40_cycle.md R80 to R87), and the placing of a word where it fetches. -/

namespace Sys2Proof.Machine

/-- `step()` (R80). `FAULTED`: nothing changes (R87). `AWAIT_KEY`: the suspended `Fx0A` is resumed (R86). `RUNNING`: the
fetch or its fault (R81), then the instruction (R82, R83) or the undefined word (R84). -/
def step (s : State) : Host.Outcome State Fault Refusal :=
  match s.run with
  | .faulted => .next s
  | .awaitKey => resumeAwaitKey s
  | .running =>
    match s.fetch with
    | none => .next s.raiseFetch
    | some w =>
      match decode w with
      | .ok i => exec i (s.setIr w)
      | .error _ => execUndefined (s.setIr w)

/-- `s` with the instruction of those bits (numbered as spec/opcode_table.json numbers them) stored where the next step
fetches (log entry 7). -/
def State.withFetchWord (s : State) (nbits w : Nat) : State := s.readyToFetch.placeWord (firstTableWord nbits w)

end Sys2Proof.Machine
end

