-- ==== Sys2Proof/Machine/Transactions.lean ====
section
/-! DEFINITION. The host's entry points beside `step()` (spec/10_state.md R28 to R30): `initialize(program_bytes)`
(spec/70_reset_and_hazards.md R180 to R182), `tick_timers()`, `set_key(v)`, `ack_frame()`, the read ports, and a schedule
of transactions, which is the model's input. -/

namespace Sys2Proof.Machine

/-- Every cell of the spec at its reset value, with `FONT` at 0 to 79 (R26). The model's own `draws` and `diags` belong to the outside world
and stay: a reset neither rewinds the random source nor unwrites a log (log entries 2 and 4). -/
def State.resetCells (font : Font) (s : State) : State := ((State.resetWith font).setDraws s.draws).setDiags s.diags

/-- `initialize(program_bytes)` of a core whose parameter `FONT` is `font` (R5, R27): everything is reset; a program of at most 3584 bytes is copied to 0x200, a longer one is
rejected and nothing of it is copied (R180, R182). -/
def initializeWith (font : Font) (program : List Byte) (s : State) : State :=
  if Config.maxProg < program.length then (s.resetCells font).raise .loadTooLarge ⟨0, 0, 0⟩
  else (s.resetCells font).setMem ((s.resetCells font).mem.writeBytes Config.progBase program)

/-- `set_key(v)`: the core does not check the range of a key code (R20, R140). -/
def setKey (key : Option Byte) (s : State) : State := s.setKey key

/-- `ack_frame()` (R136). -/
def ackFrame (s : State) : State := s.setFbDirty false

/-- The host's calls (R28). -/
inductive Transaction where
  /-- `initialize(program_bytes)` -/
  | initializeWith (program : List Byte)
  /-- `step()` -/
  | step
  /-- `tick_timers()` -/
  | tickTimers
  /-- `set_key(v)` -/
  | setKey (key : Option Byte)
  /-- `ack_frame()` -/
  | ackFrame
  deriving DecidableEq, Repr

/-- One transaction, atomic (R29), of a core whose parameter `FONT` is `font`. -/
def transact (font : Font) (t : Transaction) (s : State) : Result :=
  match t with
  | .initializeWith program => .next (Sys2Proof.Machine.initializeWith font program s)
  | .step => Sys2Proof.Machine.step s
  | .tickTimers => .next (Sys2Proof.Machine.tickTimers s)
  | .setKey key => .next (Sys2Proof.Machine.setKey key s)
  | .ackFrame => .next (Sys2Proof.Machine.ackFrame s)

/-- A schedule: the host's calls in their order, any order and any ratio (R30). The configuration
constant `FONT` is one for the whole schedule (R27). -/
def runSchedule (font : Font) : List Transaction → State → Result
  | [], s => .next s
  | t :: ts, s =>
    match transact font t s with
    | .next s' => runSchedule font ts s'
    | .fault r => .fault r
    | .refused r => .refused r

/-! ## Read ports (R28, R137): reading has no side effect -/

/-- The code of a run state on the port (R22). -/
def runCode : RunState → BitVec 2
  | .running => 0
  | .awaitKey => 1
  | .faulted => 2

/-- The code of a fault cause on the port (R151). -/
def causeCode : FaultCause → BitVec 3
  | .none => 0
  | .stackOverflow => 1
  | .stackUnderflow => 2
  | .memBoundsFetch => 3
  | .memBoundsData => 4
  | .loadTooLarge => 5

/-- The code of a diagnostic (R155). -/
def diagCode : DiagCode → Nat
  | .unknownOpcode => 1

/-- Bit `k` of the framebuffer port: row-major, cell `(px, py)` at `py * 64 + px` (R137). -/
def fbPort (s : State) (k : Fin 2048) : Bool := litAt s.fb (.ofNat 64 (k.val % 64), .ofNat 32 (k.val / 64))

/-- What the host can read between two transactions (R28); the framebuffer is `fbPort`. -/
structure HostView where
  fbDirty : Bool
  run : BitVec 2
  faultCause : BitVec 3
  faultInfo : FaultInfo
  sound : Byte
  diags : List Diag
  deriving DecidableEq, Repr

/-- The read ports (R28). -/
def readPorts (s : State) : HostView where
  fbDirty := s.fbDirty
  run := runCode s.run
  faultCause := causeCode s.faultCause
  faultInfo := s.faultInfo
  sound := s.sound
  diags := s.diags

end Sys2Proof.Machine
end

