-- ==== Sys2Proof/Safety.lean ====
section
/-! DEFINITION. The terms in which claims about the core are stated: which cells two states share, what a good state is,
the invariant of the machine, and the customary end of a program. -/

namespace Sys2Proof.Machine

/-- The names of the cells of State. -/
inductive Field where
  | v | i | pc | stack | sp | delay | sound | fb | mem | key | ir | run | faultCause | faultInfo | fbDirty | draws | diags
  deriving DecidableEq, Repr

/-- The two states hold the same in that cell. Memory is compared byte by byte through `Memory.read`. -/
def SameIn (f : Field) (s t : State) : Prop :=
  match f with
  | .v => t.v = s.v
  | .i => t.i = s.i
  | .pc => t.pc = s.pc
  | .stack => t.stack = s.stack
  | .sp => t.sp = s.sp
  | .delay => t.delay = s.delay
  | .sound => t.sound = s.sound
  | .fb => t.fb = s.fb
  | .mem => ∀ a, t.mem.read a = s.mem.read a
  | .key => t.key = s.key
  | .ir => t.ir = s.ir
  | .run => t.run = s.run
  | .faultCause => t.faultCause = s.faultCause
  | .faultInfo => t.faultInfo = s.faultInfo
  | .fbDirty => t.fbDirty = s.fbDirty
  | .draws => t.draws = s.draws
  | .diags => t.diags = s.diags

/-- Every cell outside the list is unchanged from `s` to `t`. -/
def SameExcept (changed : List Field) (s t : State) : Prop := ∀ f, f ∉ changed → SameIn f s t

/-- Every general register outside the list is unchanged from `s` to `t`. -/
def RegsSameExcept (written : List Reg) (s t : State) : Prop := ∀ r, r ∉ written → t.reg r = s.reg r

/-- A good state: no machine fault has stopped the core (R153). -/
def Good (s : State) : Prop := s.run ≠ .faulted

/-- `t` is `s` stopped by that machine fault: the cause and the record are written, and nothing else changes (R152). -/
def FaultedWith (cause : FaultCause) (info : FaultInfo) (s t : State) : Prop :=
  t.run = .faulted ∧ t.faultCause = cause ∧ t.faultInfo = info ∧ SameExcept [.run, .faultCause, .faultInfo] s t

/-- The customary end of a program: `pc` addresses a `1nnn` whose `nnn` equals `pc` (R193). `END_OF_RUN` itself is left to
whoever states a claim (D28; log entry 11). -/
def jumpsToSelf (s : State) : Bool :=
  match s.fetch with
  | some w =>
    match decode w with
    | .ok (.jp nnn) => zextAddr nnn == s.pc
    | _ => false
  | none => false

/-- The invariant of the machine: it holds after reset, and every transaction keeps it. -/
structure Inv (s : State) : Prop where
  /-- Memory is in its canonical form. -/
  memWf : s.mem.wf = true
  /-- The largest value of `pc` is `0xFFF + 0xFF` (R14). -/
  pcBound : s.pc.toNat ≤ 0x10FE
  /-- An occupied slot holds the address of a `2nnn` that was fetched (R15, R91). -/
  slotsFetchable : ∀ k : Fin 16, k.val < s.sp.val → (s.stack[k]).toNat ≤ 4094
  /-- The cause is 0 while no fault has been raised (R23). -/
  faultedIffCause : s.run = .faulted ↔ s.faultCause ≠ .none
  /-- The record is 0 while no fault has been raised (R23, R151). -/
  recordEmpty : s.run ≠ .faulted → s.faultInfo = ⟨0, 0, 0⟩
  /-- Faults are precise: `pc` addresses the faulting instruction (R152). A rejected load has no instruction (R182). -/
  faultPrecise : s.run = .faulted → s.faultCause ≠ .loadTooLarge → s.faultInfo.faultPc = s.pc
  /-- A stack overflow was raised with all 16 slots occupied (R151). -/
  overflowFull : s.faultCause = .stackOverflow → s.sp = 16
  /-- A stack underflow was raised with no slot occupied (R151). -/
  underflowEmpty : s.faultCause = .stackUnderflow → s.sp = 0
  /-- A fetch fault was raised with `pc + 1 > 4095` (R81, R151). -/
  fetchOutside : s.faultCause = .memBoundsFetch → 4095 < s.pc.toNat + 1
  /-- While awaiting a key, `pc` still addresses the suspended `Fx0A` and `ir` holds it (R21, R22). -/
  awaitsKey : s.run = .awaitKey → s.fetch = some s.ir ∧ ∃ x, decode s.ir = .ok (.ldVxK x)

end Sys2Proof.Machine
end

