-- ==== Sys2Proof/Certificates/Slice0/Obligations.lean ====
section
/-! DEFINITION. The statements about the core, each a proposition for the provers. A title that says "the spec's
decision" rests on an entry D<n> of spec/92_eei_decisions.md, which the spec marks as its own choice. A statement about
`Cxnn` holds for every free value of its byte (log entry 2). -/

open Sys2Proof Sys2Proof.Machine

/-! ## Encoding -/

/-- Words written out from the formats of R62 and the rows of R65 decode to the instructions they stand for; three words
of R64 and R66 decode to none (0x0000 by the spec's decision D7, 0x5121 and 0x01E0 by D8). -/
def Obligations.DecodeOfWrittenWords : Prop :=
  decode 0x00E0 = .ok .cls ∧ decode 0x00EE = .ok .ret ∧ decode 0x1234 = .ok (.jp 0x234) ∧
  decode 0x220A = .ok (.call 0x20A) ∧ decode 0x3100 = .ok (.seImm 1 0x00) ∧ decode 0x5230 = .ok (.seReg 2 3) ∧
  decode 0x6A55 = .ok (.ldImm 10 0x55) ∧ decode 0x8014 = .ok (.addReg 0 1) ∧ decode 0x812E = .ok (.shl 1 2) ∧
  decode 0xA300 = .ok (.ldI 0x300) ∧ decode 0xC30F = .ok (.rnd 3 0x0F) ∧ decode 0xD012 = .ok (.drw 0 1 2) ∧
  decode 0xE29E = .ok (.skp 2) ∧ decode 0xF20A = .ok (.ldVxK 2) ∧ decode 0xF418 = .ok (.ldStVx 4) ∧
  decode 0xF355 = .ok (.stRegs 3) ∧ decode 0x0000 = .error (.undefinedWord .family0) ∧
  decode 0x5121 = .error (.undefinedWord .family5) ∧ decode 0x01E0 = .error (.undefinedWord .family0)

/-- Every instruction, with every operand at every value its field admits, is what its own word decodes to, and what its
two bytes decode to whatever follows them (R44, R62, R64, R65). Every instruction is well formed (R68). -/
def Obligations.DecodeOfEncodeIsTheInstruction : Prop :=
  ∀ (i : Instr) (rest : List Byte),
    decode (encode i) = .ok i ∧ decodeBytes (encodeBytes i ++ rest) = .ok (i, rest)

/-- The word of the instruction that a word decodes to is that word: decoding drops no bit (R61, R64). -/
def Obligations.EncodeOfDecodeIsTheWord : Prop :=
  ∀ (w : Word) (i : Instr), decode w = .ok i → encode i = w

/-- The decision of R64 and the opcode table of R65 agree: a word decodes to an instruction only if the row of that
instruction's mnemonic selects it, a word that a row selects decodes to some instruction, and a word that no row
selects is an undefined word. -/
def Obligations.DecoderAgreesWithOpcodeTable : Prop :=
  ∀ w : Word,
    (∀ i, decode w = .ok i → ∃ r ∈ opTable, r.mnemonic = i.mnemonic ∧ r.selects w = true) ∧
    ((∃ r ∈ opTable, r.selects w = true) → ∃ i, decode w = .ok i) ∧
    ((∀ r ∈ opTable, r.selects w = false) → ∃ f, decode w = .error (.undefinedWord f))

/-- No two rows of the opcode table select the same word (R65: "no two rows overlap (checked over all 65536 words)"). -/
def Obligations.OpcodeRowsDoNotOverlap : Prop :=
  ∀ (w : Word) (r r' : OpRow), r ∈ opTable → r' ∈ opTable → r.selects w = true → r'.selects w = true → r = r'

/-- The undefined words, family by family, as the table of R66 lists them; `op` is bits 15 to 12. -/
def Obligations.UndefinedWordsByFamily : Prop :=
  ∀ w : Word, (∃ f, decode w = .error (.undefinedWord f)) ↔
    (w.toNat / 4096 = 0 ∧ w.toNat ≠ 0x00E0 ∧ w.toNat ≠ 0x00EE) ∨
    (w.toNat / 4096 = 5 ∧ w.toNat % 16 ≠ 0) ∨
    (w.toNat / 4096 = 8 ∧ w.toNat % 16 ∈ [8, 9, 0xA, 0xB, 0xC, 0xD, 0xF]) ∨
    (w.toNat / 4096 = 9 ∧ w.toNat % 16 ≠ 0) ∨
    (w.toNat / 4096 = 0xE ∧ w.toNat % 256 ∉ [0x9E, 0xA1]) ∨
    (w.toNat / 4096 = 0xF ∧ w.toNat % 256 ∉ [0x07, 0x0A, 0x15, 0x18, 0x1E, 0x29, 0x33, 0x55, 0x65])

/-! ## The step -/

/-- In `RUNNING`, when the big-endian word of the bytes at `pc` and `pc + 1` decodes to an instruction, a step is the
execution of that instruction, with the word in `ir` and nothing else around it (R44, R80 to R83). -/
def Obligations.StepRunsDecodedInstruction : Prop :=
  ∀ (s : State) (w : Word) (i : Instr), s.run = .running → s.pc.toNat + 1 ≤ 4095 →
    w.toNat = (s.mem.read s.pc.toNat).toNat * 256 + (s.mem.read (s.pc.toNat + 1)).toNat → decode w = .ok i →
    step s = exec i (s.setIr w)

/-- In `RUNNING`, an undefined word advances `pc` by 2, emits one diagnostic, and changes nothing else but `ir`; it never
stops the core (R84). The form of the diagnostic is the spec's decision D9, and holding it in `diags` is the model's
choice (log entry 4). -/
def Obligations.UndefinedWordIsSkippedWithDiagnostic : Prop :=
  ∀ (s : State) (w : Word) (r : DecodeReject), s.run = .running → s.pc.toNat + 1 ≤ 4095 →
    w.toNat = (s.mem.read s.pc.toNat).toNat * 256 + (s.mem.read (s.pc.toNat + 1)).toNat → decode w = .error r →
    ∃ t, step s = .next t ∧ t.pc.toNat = s.pc.toNat + 2 ∧ t.ir = w ∧
      t.diags = s.diags ++ [⟨.unknownOpcode, s.pc, w⟩] ∧ SameExcept [.pc, .ir, .diags] s t

/-- In `RUNNING`, a fetch that is not inside the address space raises `MEM_BOUNDS_FETCH` and changes nothing else, not
even `ir` (R81, the spec's decision D5). -/
def Obligations.FetchOutsideMemoryFaults : Prop :=
  ∀ s : State, s.run = .running → 4095 < s.pc.toNat + 1 →
    ∃ (t : State) (a : BitVec 17), step s = .next t ∧ a.toNat = max s.pc.toNat 4096 ∧
      FaultedWith .memBoundsFetch ⟨s.pc, 0, a⟩ s t

/-- In `AWAIT_KEY`, a step finds a latched key and completes the `Fx0A` whose `x` field is in `ir`, or finds none and
changes nothing; no word is fetched (R86, the spec's decision D16). -/
def Obligations.AwaitingStepResumesOrWaits : Prop :=
  ∀ s : State, s.run = .awaitKey →
    (s.key = none → step s = .next s) ∧
    (∀ (k : Byte) (x : Reg), s.key = some k → x.val = s.ir.toNat / 256 % 16 →
      ∃ t, step s = .next t ∧ t.reg x = k ∧ t.pc = s.pc + 2 ∧ t.run = .running ∧
        RegsSameExcept [x] s t ∧ SameExcept [.v, .pc, .run] s t)

/-- In `FAULTED` a step changes nothing, while a tick of both timers, a key write and a frame acknowledge keep their effect
and leave the core `FAULTED`; `initialize` of a program that fits, with any `FONT`, leaves it running (R87, R153, R181; the
spec's decisions D3 for the stopped core and D23 for the tick). -/
def Obligations.FaultedCoreStopsUntilReset : Prop :=
  ∀ s : State, s.run = .faulted →
    step s = .next s ∧
    (tickTimers s).run = .faulted ∧ (tickTimers s).delay.toNat = s.delay.toNat - 1 ∧
    (tickTimers s).sound.toNat = s.sound.toNat - 1 ∧
    (∀ k, (setKey k s).run = .faulted ∧ (setKey k s).key = k) ∧
    (ackFrame s).run = .faulted ∧ (ackFrame s).fbDirty = false ∧
    (∀ (font : Font) (p : List Byte), p.length ≤ 3584 →
      (initializeWith font p s).run = .running ∧ (initializeWith font p s).faultCause = .none)

/-- No step of the core ends outside its states: whatever the state, a step answers a next state. That a machine fault
is a state is R152 and R87; that no fault or refusal outcome is left is the model's form of it (log entry 3). -/
def Obligations.EveryStepAnswersANextState : Prop :=
  ∀ s : State, ∃ t, step s = .next t

/-- Where the next `pc` of a fetched instruction is (R88). -/
def Sys2Proof.Machine.pcAfter (i : Instr) (s : State) : Nat :=
  match i with
  | .jp nnn => nnn.toNat
  | .call nnn => nnn.toNat
  | .ret => (if h : 0 < s.sp.val then (s.stack[s.sp.val - 1]'(by omega)).toNat else 0) + 2
  | .jpV0 nnn => (s.reg 0).toNat + nnn.toNat
  | .seImm x nn => s.pc.toNat + if s.reg x = nn then 4 else 2
  | .sneImm x nn => s.pc.toNat + if s.reg x = nn then 2 else 4
  | .seReg x y => s.pc.toNat + if s.reg x = s.reg y then 4 else 2
  | .sneReg x y => s.pc.toNat + if s.reg x = s.reg y then 2 else 4
  | .skp x => s.pc.toNat + if s.key = some (s.reg x) then 4 else 2
  | .sknp x => s.pc.toNat + if s.key = some (s.reg x) then 2 else 4
  | .ldVxK _ => s.pc.toNat + if s.key = none then 0 else 2
  | .cls | .ldImm _ _ | .addImm _ _ | .ldReg _ _ | .orReg _ _ | .andReg _ _ | .xorReg _ _ | .addReg _ _ | .sub _ _
  | .shr _ _ | .subn _ _ | .shl _ _ | .ldI _ | .rnd _ _ | .drw _ _ _ | .ldVxDt _ | .ldDtVx _ | .ldStVx _ | .addI _
  | .ldF _ | .ldB _ | .stRegs _ | .ldRegs _ => s.pc.toNat + 2

/-- The table of R88, all sums exact: where `pc` is after a step that started in `RUNNING` in a state that meets the
invariant. A step that faults leaves `pc` where it was. -/
def Obligations.ProgramCounterAfterStep : Prop :=
  ∀ (s t : State) (w : Word) (i : Instr), Inv s → s.run = .running → s.fetch = some w → decode w = .ok i →
    step s = .next t →
    (t.run = .faulted → t.pc = s.pc) ∧ (t.run ≠ .faulted → t.pc.toNat = pcAfter i s)

/-! ## Machine faults -/

/-- Exactly when an instruction raises a machine fault (the rows of R151 that belong to instructions). -/
def Sys2Proof.Machine.FaultCondition (i : Instr) (s : State) : Prop :=
  match i with
  | .call _ => s.sp.val = 16
  | .ret => s.sp.val = 0
  | .drw _ _ n => 0 < n.val ∧ 4095 < s.i.toNat + n.val - 1
  | .ldB _ => 4095 < s.i.toNat + 2
  | .stRegs x => 4095 < s.i.toNat + x.val
  | .ldRegs x => 4095 < s.i.toNat + x.val
  | .cls | .jp _ | .seImm _ _ | .sneImm _ _ | .seReg _ _ | .ldImm _ _ | .addImm _ _ | .ldReg _ _ | .orReg _ _
  | .andReg _ _ | .xorReg _ _ | .addReg _ _ | .sub _ _ | .shr _ _ | .subn _ _ | .shl _ _ | .sneReg _ _ | .ldI _
  | .jpV0 _ | .rnd _ _ | .skp _ | .sknp _ | .ldVxDt _ | .ldVxK _ | .ldDtVx _ | .ldStVx _ | .addI _ | .ldF _ => False

/-- An instruction stops a core that has not faulted exactly when its condition of R151 holds; no other instruction and
no other condition raises a fault (the spec's decisions D3, D4). -/
def Obligations.InstructionsFaultExactlyWhen : Prop :=
  ∀ (i : Instr) (s : State), s.run ≠ .faulted →
    ∃ t, exec i s = .next t ∧ (t.run = .faulted ↔ FaultCondition i s)

/-- Machine faults are precise: a step that stops the core changes no cell but `run`, the fault record and `ir`, records
the address of the faulting instruction, and `ir` holds the recorded word, except that a fetch fault records the word 0
and leaves `ir` (R152, the spec's decision D3). -/
def Obligations.MachineFaultsArePrecise : Prop :=
  ∀ s t : State, step s = .next t → s.run ≠ .faulted → t.run = .faulted →
    SameExcept [.run, .faultCause, .faultInfo, .ir] s t ∧ t.faultInfo.faultPc = s.pc ∧
    t.faultCause ≠ .none ∧ t.faultCause ≠ .loadTooLarge ∧
    (t.faultCause = .memBoundsFetch → t.ir = s.ir ∧ t.faultInfo.faultWord = 0) ∧
    (t.faultCause ≠ .memBoundsFetch → t.faultInfo.faultWord = t.ir)

/-! ## Control transfer -/

/-- `1nnn` sets `pc` to the zero-extended `nnn` and changes nothing else; a target of 0xFFF is accepted and cannot be
fetched (R92). -/
def Obligations.JumpSetsPc : Prop :=
  ∀ (nnn : Addr) (s : State), ∃ t, exec (.jp nnn) s = .next t ∧ t.pc.toNat = nnn.toNat ∧ SameExcept [.pc] s t ∧
    (nnn.toNat = 0xFFF → t.fetch = none)

/-- `2nnn` pushes the address of the call itself and sets `pc` to `nnn`; with all 16 slots occupied it raises
`STACK_OVERFLOW` and no slot is written (R93, the spec's decision D3 for the record of the fault and D19 for `sp`). -/
def Obligations.CallPushesItsAddress : Prop :=
  ∀ (nnn : Addr) (s : State),
    (∀ h : s.sp.val < 16, ∃ t, exec (.call nnn) s = .next t ∧ t.pc.toNat = nnn.toNat ∧ t.sp.val = s.sp.val + 1 ∧
      t.stack[s.sp.val] = s.pc ∧ (∀ k : Fin 16, k.val ≠ s.sp.val → t.stack[k] = s.stack[k]) ∧
      SameExcept [.pc, .sp, .stack] s t) ∧
    (s.sp.val = 16 → ∃ t, exec (.call nnn) s = .next t ∧ FaultedWith .stackOverflow ⟨s.pc, s.ir, 0⟩ s t)

/-- `00EE` pops a slot, which keeps its content, and sets `pc` 2 past it; with no slot occupied it raises
`STACK_UNDERFLOW` (R91, the spec's decision D3 for the record of the fault and D19 for `sp`). -/
def Obligations.ReturnResumesAfterTheCall : Prop :=
  ∀ s : State,
    (∀ h : 0 < s.sp.val, ∃ t, exec .ret s = .next t ∧ t.pc = s.stack[s.sp.val - 1]'(by omega) + 2 ∧
      t.sp.val + 1 = s.sp.val ∧ SameExcept [.pc, .sp] s t) ∧
    (s.sp.val = 0 → ∃ t, exec .ret s = .next t ∧ FaultedWith .stackUnderflow ⟨s.pc, 0x00EE, 0⟩ s t)

/-- The round trip: after a `2nnn` and a subroutine that ends with `sp` and the call's own slot as the call left them,
whatever it did to every other slot (by calls of its own) and every other cell, `00EE` resumes at the instruction after
the call, `sp` is back, and the slot keeps the call's address (R99). -/
def Obligations.CallThenReturnComesBack : Prop :=
  ∀ (nnn : Addr) (s t u : State) (h : s.sp.val < 16), exec (.call nnn) s = .next t → u.sp = t.sp →
    u.stack[s.sp.val] = t.stack[s.sp.val] →
    ∃ v, exec .ret u = .next v ∧ v.pc = s.pc + 2 ∧ v.sp = s.sp ∧ v.stack[s.sp.val] = s.pc

/-- `Bnnn` sets `pc` to `V[0] + nnn`, not reduced to 12 bits, and changes nothing else; a sum above 4094 cannot be
fetched (R98). -/
def Obligations.ComputedJumpAddsV0 : Prop :=
  ∀ (nnn : Addr) (s : State), ∃ t, exec (.jpV0 nnn) s = .next t ∧ t.pc.toNat = (s.reg 0).toNat + nnn.toNat ∧
    SameExcept [.pc] s t ∧ (4094 < (s.reg 0).toNat + nnn.toNat → t.fetch = none)

/-- `3xnn` skips exactly when `V[x]` equals `nn`, `4xnn` exactly when it does not; nothing but `pc` changes, and the words
of format XNN in families 3 and 4 are these instructions (R94, R95). -/
def Obligations.SkipsComparingWithImmediate : Prop :=
  ∀ (x : Reg) (nn : Byte) (s : State),
    (∃ t, exec (.seImm x nn) s = .next t ∧ SameExcept [.pc] s t ∧
      (s.reg x = nn → t.pc = s.pc + 4) ∧ (s.reg x ≠ nn → t.pc = s.pc + 2)) ∧
    (∃ t, exec (.sneImm x nn) s = .next t ∧ SameExcept [.pc] s t ∧
      (s.reg x = nn → t.pc = s.pc + 2) ∧ (s.reg x ≠ nn → t.pc = s.pc + 4)) ∧
    decode (encodeXNN 0x3 x nn) = .ok (.seImm x nn) ∧ decode (encodeXNN 0x4 x nn) = .ok (.sneImm x nn)

/-- `5xy0` skips exactly when `V[x]` equals `V[y]`, `9xy0` exactly when it does not; nothing but `pc` changes; `5xyn` and
`9xyn` with `n` not 0 are other, undefined words (R96, R97, the spec's decision D8 for the last). -/
def Obligations.SkipsComparingRegisters : Prop :=
  ∀ (x y : Reg) (s : State),
    (∃ t, exec (.seReg x y) s = .next t ∧ SameExcept [.pc] s t ∧
      (s.reg x = s.reg y → t.pc = s.pc + 4) ∧ (s.reg x ≠ s.reg y → t.pc = s.pc + 2)) ∧
    (∃ t, exec (.sneReg x y) s = .next t ∧ SameExcept [.pc] s t ∧
      (s.reg x = s.reg y → t.pc = s.pc + 2) ∧ (s.reg x ≠ s.reg y → t.pc = s.pc + 4)) ∧
    (∀ n : BitVec 4, n ≠ 0 → decode (encodeXYN 0x5 x y n) = .error (.undefinedWord .family5) ∧
      decode (encodeXYN 0x9 x y n) = .error (.undefinedWord .family9))

/-! ## Registers and ALU -/

/-- `6xnn` loads `nn` into `V[x]` and `8xy0` copies `V[y]` into it; no other register, and no other cell but `pc`,
changes; with `x = 15` the destination is `VF` itself; the words are those of family 6, and of family 8 with low nibble 0
(R101, R103). -/
def Obligations.RegisterLoads : Prop :=
  ∀ (x y : Reg) (nn : Byte) (s : State),
    (∃ t, exec (.ldImm x nn) s = .next t ∧ t.reg x = nn ∧ t.pc = s.pc + 2 ∧
      RegsSameExcept [x] s t ∧ SameExcept [.v, .pc] s t) ∧
    (∃ t, exec (.ldReg x y) s = .next t ∧ t.reg x = s.reg y ∧ t.pc = s.pc + 2 ∧
      RegsSameExcept [x] s t ∧ SameExcept [.v, .pc] s t) ∧
    decode (encodeXNN 0x6 x nn) = .ok (.ldImm x nn) ∧ decode (encodeXYN 0x8 x y 0x0) = .ok (.ldReg x y)

/-- `7xnn` adds modulo 256, discards the carry and leaves every other register, `VF` with them, as it was; the words are
those of family 7 (R102). -/
def Obligations.AddImmediateWrapsWithoutFlag : Prop :=
  ∀ (x : Reg) (nn : Byte) (s : State), ∃ t, exec (.addImm x nn) s = .next t ∧
    (t.reg x).toNat = ((s.reg x).toNat + nn.toNat) % 256 ∧ t.pc = s.pc + 2 ∧
    RegsSameExcept [x] s t ∧ SameExcept [.v, .pc] s t ∧ decode (encodeXNN 0x7 x nn) = .ok (.addImm x nn)

/-- `8xy1`, `8xy2` and `8xy3` write the bitwise OR, AND and XOR of `V[x]` and `V[y]` to `V[x]` and touch no other register:
`VF` is not reset; the words are those of family 8 with low nibble 1, 2 and 3 (R104, R105, R106). -/
def Obligations.LogicIsBitwiseWithoutFlag : Prop :=
  ∀ (x y : Reg) (s : State),
    (∃ t, exec (.orReg x y) s = .next t ∧
      (∀ k, k < 8 → (t.reg x).getLsbD k = ((s.reg x).getLsbD k || (s.reg y).getLsbD k)) ∧
      t.pc = s.pc + 2 ∧ RegsSameExcept [x] s t ∧ SameExcept [.v, .pc] s t) ∧
    (∃ t, exec (.andReg x y) s = .next t ∧
      (∀ k, k < 8 → (t.reg x).getLsbD k = ((s.reg x).getLsbD k && (s.reg y).getLsbD k)) ∧
      t.pc = s.pc + 2 ∧ RegsSameExcept [x] s t ∧ SameExcept [.v, .pc] s t) ∧
    (∃ t, exec (.xorReg x y) s = .next t ∧
      (∀ k, k < 8 → (t.reg x).getLsbD k = ((s.reg x).getLsbD k != (s.reg y).getLsbD k)) ∧
      t.pc = s.pc + 2 ∧ RegsSameExcept [x] s t ∧ SameExcept [.v, .pc] s t) ∧
    decode (encodeXYN 0x8 x y 0x1) = .ok (.orReg x y) ∧ decode (encodeXYN 0x8 x y 0x2) = .ok (.andReg x y) ∧
    decode (encodeXYN 0x8 x y 0x3) = .ok (.xorReg x y)

/-- `8xy4`: the low 8 bits of the sum go to `V[x]`, and the carry to `VF` unless `x = 15`, when the sum stays there
(R107, and R100 with the spec's decision D12 for the order of the two writes). -/
def Obligations.AddSetsCarry : Prop :=
  ∀ (x y : Reg) (s : State), ∃ t, exec (.addReg x y) s = .next t ∧
    (t.reg x).toNat = ((s.reg x).toNat + (s.reg y).toNat) % 256 ∧
    (x ≠ VF → (t.reg VF).toNat = if (s.reg x).toNat + (s.reg y).toNat > 255 then 1 else 0) ∧
    t.pc = s.pc + 2 ∧ RegsSameExcept [x, VF] s t ∧ SameExcept [.v, .pc] s t

/-- `8xy5`: `V[x] − V[y]` modulo 256 goes to `V[x]`, and to `VF` 1 for no borrow or 0 for a borrow, unless `x = 15`
(R108, the spec's decisions D11 for the polarity and D12 for the order of the two writes). -/
def Obligations.SubtractSetsNoBorrow : Prop :=
  ∀ (x y : Reg) (s : State), ∃ t, exec (.sub x y) s = .next t ∧
    ((t.reg x).toNat : Int) = ((s.reg x).toNat - (s.reg y).toNat : Int) % 256 ∧
    (x ≠ VF → (t.reg VF).toNat = if (s.reg x).toNat ≥ (s.reg y).toNat then 1 else 0) ∧
    t.pc = s.pc + 2 ∧ RegsSameExcept [x, VF] s t ∧ SameExcept [.v, .pc] s t

/-- `8xy7`: `V[y] − V[x]` modulo 256 goes to `V[x]`, and to `VF` 1 for no borrow or 0 for a borrow, unless `x = 15`
(R110, the spec's decisions D11 for the polarity and D12 for the order of the two writes). -/
def Obligations.ReverseSubtractSetsNoBorrow : Prop :=
  ∀ (x y : Reg) (s : State), ∃ t, exec (.subn x y) s = .next t ∧
    ((t.reg x).toNat : Int) = ((s.reg y).toNat - (s.reg x).toNat : Int) % 256 ∧
    (x ≠ VF → (t.reg VF).toNat = if (s.reg y).toNat ≥ (s.reg x).toNat then 1 else 0) ∧
    t.pc = s.pc + 2 ∧ RegsSameExcept [x, VF] s t ∧ SameExcept [.v, .pc] s t

/-- `8xy6` shifts `V[y]` right by one into `V[x]` and the bit shifted out to `VF`, unless `x = 15`; `V[y]` keeps its value
unless it is `V[x]` or `VF` (R109, the spec's decisions D10 for the source and D12 for the order of the two writes). -/
def Obligations.ShiftRightTakesTheLowBit : Prop :=
  ∀ (x y : Reg) (s : State), ∃ t, exec (.shr x y) s = .next t ∧
    (t.reg x).toNat = (s.reg y).toNat / 2 ∧ (x ≠ VF → (t.reg VF).toNat = (s.reg y).toNat % 2) ∧
    t.pc = s.pc + 2 ∧ RegsSameExcept [x, VF] s t ∧ SameExcept [.v, .pc] s t

/-- `8xyE` shifts `V[y]` left by one into `V[x]`, kept to 8 bits, and the bit shifted out to `VF`, unless `x = 15`
(R111, the spec's decisions D10 for the source and D12 for the order of the two writes). -/
def Obligations.ShiftLeftTakesTheHighBit : Prop :=
  ∀ (x y : Reg) (s : State), ∃ t, exec (.shl x y) s = .next t ∧
    (t.reg x).toNat = (s.reg y).toNat * 2 % 256 ∧ (x ≠ VF → (t.reg VF).toNat = (s.reg y).toNat / 128) ∧
    t.pc = s.pc + 2 ∧ RegsSameExcept [x, VF] s t ∧ SameExcept [.v, .pc] s t

/-- `Cxnn` writes the drawn byte, whatever it is, ANDed with `nn`, so no bit outside `nn` is ever set; the next draw is
another (R112, D18; the byte is the free value of log entry 2, and `draws` is the model's own). -/
def Obligations.RandomByteIsMasked : Prop :=
  ∀ (x : Reg) (nn : Byte) (s : State), ∃ t, exec (.rnd x nn) s = .next t ∧
    (∀ k, k < 8 → (t.reg x).getLsbD k = ((Config.randByte s.draws).getLsbD k && nn.getLsbD k)) ∧
    t.reg x &&& ~~~nn = 0 ∧ t.pc = s.pc + 2 ∧ t.draws = s.draws + 1 ∧
    RegsSameExcept [x] s t ∧ SameExcept [.v, .pc, .draws] s t

/-- The instructions that write `VF` as a side effect (R12). -/
def Sys2Proof.Machine.flagWriter : Instr → Bool
  | .addReg _ _ | .sub _ _ | .shr _ _ | .subn _ _ | .shl _ _ | .drw _ _ _ => true
  | _ => false

/-- The instructions whose destination registers, as their fields name them, hold register 15. -/
def Sys2Proof.Machine.namesVF : Instr → Bool
  | .ldImm x _ | .addImm x _ | .ldReg x _ | .orReg x _ | .andReg x _ | .xorReg x _ | .addReg x _ | .sub x _ | .shr x _
  | .subn x _ | .shl x _ | .rnd x _ | .ldVxDt x | .ldVxK x | .ldRegs x => x == VF
  | _ => false

/-- `VF` is written as a side effect by the six instructions of R12 and by no other, and what they write is always exactly
0 or 1, whatever the operands. -/
def Obligations.OnlyFlagWritersTouchVF : Prop :=
  ∀ (i : Instr) (s t : State), exec i s = .next t → namesVF i = false →
    (flagWriter i = false → t.reg VF = s.reg VF) ∧
    (flagWriter i = true → ¬ FaultCondition i s → t.reg VF = 0 ∨ t.reg VF = 1)

/-! ## Index register and memory -/

/-- `Annn` sets `I` to the zero-extended `nnn`, always inside the address space, and changes nothing else but `pc`; the
words are those of family A (R121). -/
def Obligations.LoadIndexImmediate : Prop :=
  ∀ (nnn : Addr) (s : State), ∃ t, exec (.ldI nnn) s = .next t ∧ t.i.toNat = nnn.toNat ∧ t.i.toNat ≤ 0xFFF ∧
    t.pc = s.pc + 2 ∧ SameExcept [.i, .pc] s t ∧ decode (encodeNNN 0xA nnn) = .ok (.ldI nnn)

/-- `Fx1E` adds `V[x]` to `I` modulo 65536, without a flag and without a fault (R122, the spec's decision D13 for the
wrap). -/
def Obligations.AddToIndexWraps : Prop :=
  ∀ (x : Reg) (s : State), ∃ t, exec (.addI x) s = .next t ∧
    t.i.toNat = (s.i.toNat + (s.reg x).toNat) % 65536 ∧ t.pc = s.pc + 2 ∧ SameExcept [.i, .pc] s t

/-- `Fx29` sets `I` to five times the whole byte `V[x]`, not masked to 4 bits (R123). -/
def Obligations.GlyphAddressIsFiveTimes : Prop :=
  ∀ (x : Reg) (s : State), ∃ t, exec (.ldF x) s = .next t ∧ t.i.toNat = (s.reg x).toNat * 5 ∧
    t.pc = s.pc + 2 ∧ SameExcept [.i, .pc] s t

/-- `Fx33` stores the three decimal digits of `V[x]` at `I`, `I + 1` and `I + 2` and changes no other byte and no other
cell but `pc`; when the three bytes do not all lie in the address space it raises `MEM_BOUNDS_DATA` and stores none
(R124, the spec's decision D4 for the fault). -/
def Obligations.BcdStoresThreeDigits : Prop :=
  ∀ (x : Reg) (s : State),
    (s.mem.wf = true → s.i.toNat + 2 ≤ 4095 → ∃ t, exec (.ldB x) s = .next t ∧
      (t.mem.read s.i.toNat).toNat = (s.reg x).toNat / 100 ∧
      (t.mem.read (s.i.toNat + 1)).toNat = (s.reg x).toNat / 10 % 10 ∧
      (t.mem.read (s.i.toNat + 2)).toNat = (s.reg x).toNat % 10 ∧
      (∀ a, a < s.i.toNat ∨ s.i.toNat + 2 < a → t.mem.read a = s.mem.read a) ∧
      t.pc = s.pc + 2 ∧ SameExcept [.mem, .pc] s t) ∧
    (4095 < s.i.toNat + 2 → ∃ (t : State) (a : BitVec 17), exec (.ldB x) s = .next t ∧
      a.toNat = max s.i.toNat 4096 ∧ FaultedWith .memBoundsData ⟨s.pc, s.ir, a⟩ s t)

/-- `Fx55` stores `V[0]` to `V[x]` from `I` on, changes no other byte, and advances `I` by `x + 1`; when the range does
not lie in the address space it raises `MEM_BOUNDS_DATA`, stores nothing and leaves `I`
(R125, the spec's decision D4 for the fault). -/
def Obligations.StoreRegistersAdvancesIndex : Prop :=
  ∀ (x : Reg) (s : State),
    (s.mem.wf = true → s.i.toNat + x.val ≤ 4095 → ∃ t, exec (.stRegs x) s = .next t ∧
      (∀ r : Reg, r.val ≤ x.val → t.mem.read (s.i.toNat + r.val) = s.reg r) ∧
      (∀ a, a < s.i.toNat ∨ s.i.toNat + x.val < a → t.mem.read a = s.mem.read a) ∧
      t.i.toNat = s.i.toNat + x.val + 1 ∧ t.pc = s.pc + 2 ∧ SameExcept [.mem, .i, .pc] s t) ∧
    (4095 < s.i.toNat + x.val → ∃ (t : State) (a : BitVec 17), exec (.stRegs x) s = .next t ∧
      a.toNat = max s.i.toNat 4096 ∧ FaultedWith .memBoundsData ⟨s.pc, s.ir, a⟩ s t)

/-- `Fx65` loads `V[0]` to `V[x]` from `I` on, leaves the registers above and every byte of memory, and advances `I` by
`x + 1`; when the range does not lie in the address space it raises `MEM_BOUNDS_DATA`, loads nothing and leaves `I`
(R126, the spec's decision D4 for the fault). -/
def Obligations.LoadRegistersAdvancesIndex : Prop :=
  ∀ (x : Reg) (s : State),
    (s.i.toNat + x.val ≤ 4095 → ∃ t, exec (.ldRegs x) s = .next t ∧
      (∀ r : Reg, r.val ≤ x.val → t.reg r = s.mem.read (s.i.toNat + r.val)) ∧
      (∀ r : Reg, x.val < r.val → t.reg r = s.reg r) ∧
      t.i.toNat = s.i.toNat + x.val + 1 ∧ t.pc = s.pc + 2 ∧ SameExcept [.v, .i, .pc] s t) ∧
    (4095 < s.i.toNat + x.val → ∃ (t : State) (a : BitVec 17), exec (.ldRegs x) s = .next t ∧
      a.toNat = max s.i.toNat 4096 ∧ FaultedWith .memBoundsData ⟨s.pc, s.ir, a⟩ s t)

/-- `Fx55`, then `Fx65` with the same `x` from the same `I` over memory left as it was, gives the registers back, and `I`
ends `x + 1` further each time (the round trip of R125 and R126). -/
def Obligations.StoreThenLoadGivesRegistersBack : Prop :=
  ∀ (x : Reg) (s t u : State), s.mem.wf = true → s.i.toNat + x.val ≤ 4095 → exec (.stRegs x) s = .next t →
    u.i = s.i → u.mem = t.mem →
    ∃ v, exec (.ldRegs x) u = .next v ∧ (∀ r : Reg, r.val ≤ x.val → v.reg r = s.reg r) ∧ v.i = t.i ∧
      t.i.toNat = s.i.toNat + x.val + 1

/-- The cells an instruction may write, from the "written by" column of R10 and the instruction's own rule; an instruction
that can raise a machine fault may write `run` and the fault record by it (R152). -/
def Sys2Proof.Machine.mayWrite : Instr → List Field
  | .cls => [.pc, .fb, .fbDirty]
  | .ret => [.pc, .sp, .run, .faultCause, .faultInfo]
  | .call _ => [.pc, .sp, .stack, .run, .faultCause, .faultInfo]
  | .jp _ | .jpV0 _ | .seImm _ _ | .sneImm _ _ | .seReg _ _ | .sneReg _ _ | .skp _ | .sknp _ => [.pc]
  | .ldImm _ _ | .addImm _ _ | .ldReg _ _ | .orReg _ _ | .andReg _ _ | .xorReg _ _ | .addReg _ _ | .sub _ _ | .shr _ _
  | .subn _ _ | .shl _ _ | .ldVxDt _ => [.pc, .v]
  | .rnd _ _ => [.pc, .v, .draws]
  | .ldI _ | .addI _ | .ldF _ => [.pc, .i]
  | .drw _ _ _ => [.pc, .v, .fb, .fbDirty, .run, .faultCause, .faultInfo]
  | .ldVxK _ => [.pc, .v, .run]
  | .ldDtVx _ => [.pc, .delay]
  | .ldStVx _ => [.pc, .sound]
  | .ldB _ => [.pc, .mem, .run, .faultCause, .faultInfo]
  | .stRegs _ => [.pc, .mem, .i, .run, .faultCause, .faultInfo]
  | .ldRegs _ => [.pc, .v, .i, .run, .faultCause, .faultInfo]

/-- Each cell has the writers R10 names and no others: whatever an instruction does, every cell outside its list is
unchanged, every byte of memory among them. `key`, `ir` and the diagnostics are in no list, memory only in those of
`Fx33` and `Fx55`, the framebuffer only in those of `00E0` and `Dxyn`, the stack only in that of `2nnn`. -/
def Obligations.EachCellHasItsWriters : Prop :=
  ∀ (i : Instr) (s t : State), exec i s = .next t → SameExcept (mayWrite i) s t

/-! ## Display -/

/-- `00E0` clears all 2048 cells and sets `fb_dirty`; `VF` and every other cell but `pc` are unchanged
(R131; `fb_dirty` is the spec's decision D21). -/
def Obligations.ClearScreenClearsEveryCell : Prop :=
  ∀ s : State, ∃ t, exec .cls s = .next t ∧ (∀ p, litAt t.fb p = false) ∧ t.fbDirty = true ∧
    t.pc = s.pc + 2 ∧ SameExcept [.fb, .fbDirty, .pc] s t

/-- A set bit of the sprite lands on the cell: row `r` of the `n` rows at `I`, column `c` of 8, bit 7 being column 0, with
both coordinates wrapped after the offset is added (R132, R133, R134). -/
def Sys2Proof.Machine.SpriteCovers (s : State) (x y : Reg) (n : Height) (p : Pixel) : Prop :=
  ∃ r c : Nat, r < n.val ∧ c < 8 ∧ (s.mem.read (s.i.toNat + r)).toNat / 2 ^ (7 - c) % 2 = 1 ∧
    p.1.val = ((s.reg x).toNat + c) % 64 ∧ p.2.val = ((s.reg y).toNat + r) % 32

/-- `Dxyn` toggles exactly the cells the sprite's set bits land on, clips nothing, sets `fb_dirty`, and leaves in `VF` 1
exactly when some cell lit before is unlit after, else 0; no other register and no other cell but `pc` changes
(R132 to R135; the spec's decisions D15 for sampling the coordinates first and D21 for `fb_dirty`). -/
def Obligations.DrawTogglesTheSprite : Prop :=
  ∀ (x y : Reg) (n : Height) (s : State), n.val = 0 ∨ s.i.toNat + n.val - 1 ≤ 4095 →
    ∃ t, exec (.drw x y n) s = .next t ∧
      (∀ p, SpriteCovers s x y n p → litAt t.fb p = !litAt s.fb p) ∧
      (∀ p, ¬ SpriteCovers s x y n p → litAt t.fb p = litAt s.fb p) ∧
      ((∃ p, litAt s.fb p = true ∧ litAt t.fb p = false) → t.reg VF = 1) ∧
      ((∀ p, litAt s.fb p = true → litAt t.fb p = true) → t.reg VF = 0) ∧
      t.fbDirty = true ∧ t.pc = s.pc + 2 ∧ RegsSameExcept [VF] s t ∧ SameExcept [.v, .fb, .fbDirty, .pc] s t

/-- `Dxyn` whose rows do not all lie in the address space raises `MEM_BOUNDS_DATA` and draws nothing: framebuffer, `VF` and
`fb_dirty` stay (R132, the spec's decision D4). -/
def Obligations.DrawOutsideMemoryFaults : Prop :=
  ∀ (x y : Reg) (n : Height) (s : State), 0 < n.val → 4095 < s.i.toNat + n.val - 1 →
    ∃ (t : State) (a : BitVec 17), exec (.drw x y n) s = .next t ∧ a.toNat = max s.i.toNat 4096 ∧
      FaultedWith .memBoundsData ⟨s.pc, s.ir, a⟩ s t

/-- `Dxy0` draws nothing and checks nothing, whatever `I` holds: `VF` becomes 0, `fb_dirty` is set, every pixel stays
(R138, the spec's decision D14). -/
def Obligations.DrawOfHeightZero : Prop :=
  ∀ (x y : Reg) (s : State), ∃ t, exec (.drw x y 0) s = .next t ∧ t.reg VF = 0 ∧ t.fbDirty = true ∧
    t.pc = s.pc + 2 ∧ RegsSameExcept [VF] s t ∧ SameExcept [.v, .fbDirty, .pc] s t

/-- The same sprite drawn twice at the same coordinates leaves every pixel as it was, and if the first draw met no lit
cell and the sprite has a set bit, the second ends with `VF` 1 (the property of R135). With `x` or `y` 15 the
first draw changes a coordinate, so those forms are the two hypotheses. -/
def Obligations.DrawingTwiceErases : Prop :=
  ∀ (x y : Reg) (n : Height) (s t u : State), x ≠ VF → y ≠ VF →
    n.val = 0 ∨ s.i.toNat + n.val - 1 ≤ 4095 →
    exec (.drw x y n) s = .next t → exec (.drw x y n) t = .next u →
    (∀ p, litAt u.fb p = litAt s.fb p) ∧
    (t.reg VF = 0 → (∃ p, SpriteCovers s x y n p) → u.reg VF = 1)

/-! ## Keypad and timers -/

/-- `Ex9E` skips exactly when a key is latched and its whole byte equals `V[x]`; `ExA1` is its complement, so that with no
key latched it always skips; nothing but `pc` changes, the latch not either; the words are those of family E with low
byte 0x9E and 0xA1 (R141, R142). -/
def Obligations.KeySkipsCompareTheLatch : Prop :=
  ∀ (x : Reg) (s : State),
    (∃ t, exec (.skp x) s = .next t ∧ SameExcept [.pc] s t ∧
      (s.key = some (s.reg x) → t.pc = s.pc + 4) ∧ (s.key ≠ some (s.reg x) → t.pc = s.pc + 2)) ∧
    (∃ t, exec (.sknp x) s = .next t ∧ SameExcept [.pc] s t ∧
      (s.key = some (s.reg x) → t.pc = s.pc + 2) ∧ (s.key ≠ some (s.reg x) → t.pc = s.pc + 4)) ∧
    decode (encodeXNN 0xE x 0x9E) = .ok (.skp x) ∧ decode (encodeXNN 0xE x 0xA1) = .ok (.sknp x)

/-- `Fx0A` with a key latched writes its byte to `V[x]` and goes on; with none it suspends the core with `pc` still on
itself and changes nothing else (R143, the spec's decision D16). -/
def Obligations.KeyWaitCompletesOrSuspends : Prop :=
  ∀ (x : Reg) (s : State),
    (∀ k, s.key = some k → ∃ t, exec (.ldVxK x) s = .next t ∧ t.reg x = k ∧ t.pc = s.pc + 2 ∧ t.run = .running ∧
      RegsSameExcept [x] s t ∧ SameExcept [.v, .pc, .run] s t) ∧
    (s.key = none → ∃ t, exec (.ldVxK x) s = .next t ∧ t.run = .awaitKey ∧ SameExcept [.run] s t)

/-- `Fx07` copies `delay` to `V[x]`, `Fx15` and `Fx18` copy `V[x]` to `delay` and to `sound`; no other register and no other
cell but `pc` changes, so none of the three decrements a timer; the words are those of family F with low byte 0x07, 0x15
and 0x18 (R144, R145, R146). -/
def Obligations.TimerInstructionsCopyOneByte : Prop :=
  ∀ (x : Reg) (s : State),
    (∃ t, exec (.ldVxDt x) s = .next t ∧ t.reg x = s.delay ∧ t.pc = s.pc + 2 ∧
      RegsSameExcept [x] s t ∧ SameExcept [.v, .pc] s t) ∧
    (∃ t, exec (.ldDtVx x) s = .next t ∧ t.delay = s.reg x ∧ t.pc = s.pc + 2 ∧ SameExcept [.delay, .pc] s t) ∧
    (∃ t, exec (.ldStVx x) s = .next t ∧ t.sound = s.reg x ∧ t.pc = s.pc + 2 ∧ SameExcept [.sound, .pc] s t) ∧
    decode (encodeXNN 0xF x 0x07) = .ok (.ldVxDt x) ∧ decode (encodeXNN 0xF x 0x15) = .ok (.ldDtVx x) ∧
    decode (encodeXNN 0xF x 0x18) = .ok (.ldStVx x)

/-- From `RUNNING` a step suspends the core only by an `Fx0A` that finds no key, and then changes only `run` and `ir`
(R22, R147). -/
def Obligations.OnlyKeyWaitSuspends : Prop :=
  ∀ s t : State, step s = .next t → s.run = .running → t.run = .awaitKey →
    s.key = none ∧ (∃ x, decode t.ir = .ok (.ldVxK x)) ∧ SameExcept [.run, .ir] s t

/-! ## The host's transactions -/

/-- One `tick_timers()` takes 1 off each timer that is above 0, each on its own, and changes nothing else, in every run
state (R159, the spec's decision D23 for the run states). -/
def Obligations.TickTakesOneOffEachTimer : Prop :=
  ∀ s : State, (tickTimers s).delay.toNat = s.delay.toNat - 1 ∧ (tickTimers s).sound.toNat = s.sound.toNat - 1 ∧
    SameExcept [.delay, .sound] s (tickTimers s)

/-- After `k` ticks with no write between them a timer that held `v` holds `max(v − k, 0)`, and stays at 0 from then on
(R160). -/
def Obligations.TimersCountDownToZero : Prop :=
  ∀ (k : Nat) (s : State), (Nat.iterate tickTimers k s).delay.toNat = s.delay.toNat - k ∧
    (Nat.iterate tickTimers k s).sound.toNat = s.sound.toNat - k ∧
    SameExcept [.delay, .sound] s (Nat.iterate tickTimers k s)

/-- `set_key(v)` writes the latch and nothing else, any byte as it stands; `ack_frame()` clears `fb_dirty` and does
nothing else (R136, R140, the spec's decisions D17 and D21). -/
def Obligations.KeyWriteAndFrameAcknowledge : Prop :=
  ∀ (k : Option Byte) (s : State), (setKey k s).key = k ∧ SameExcept [.key] s (setKey k s) ∧
    (ackFrame s).fbDirty = false ∧ SameExcept [.fbDirty] s (ackFrame s)

/-- The cells of the core after a reset, but for memory and the run state (R26; `stack`, `key`, `ir`, `fault_info` and
`fb_dirty` are the spec's decision D20). -/
def Sys2Proof.Machine.ResetCells (t : State) : Prop :=
  (∀ r, t.reg r = 0) ∧ t.i = 0 ∧ t.pc = 0x200 ∧ t.sp = 0 ∧ (∀ k : Fin 16, t.stack[k] = 0) ∧ t.delay = 0 ∧ t.sound = 0 ∧
  (∀ p, litAt t.fb p = false) ∧ t.fbDirty = false ∧ t.key = none ∧ t.ir = 0 ∧ t.faultInfo = ⟨0, 0, 0⟩

/-- `initialize` of a program that fits, from any state and for every `FONT`: every cell at its reset value, the font at 0
to 79, zeros to 511, the program from 0x200 byte for byte, zeros above it to 4095, and the core running (R180; the values of
the cells of `ResetCells` as said there). -/
def Obligations.InitializeLoadsTheProgram : Prop :=
  ∀ (font : Font) (p : List Byte) (s : State), p.length ≤ 3584 →
    ResetCells (initializeWith font p s) ∧ (initializeWith font p s).run = .running ∧
    (initializeWith font p s).faultCause = .none ∧ (initializeWith font p s).mem.wf = true ∧
    (∀ (a : Nat) (h : a < 80), (initializeWith font p s).mem.read a = font[a]) ∧
    (∀ a, 80 ≤ a → a < 512 → (initializeWith font p s).mem.read a = 0) ∧
    (∀ (k : Nat) (h : k < p.length), (initializeWith font p s).mem.read (512 + k) = p[k]) ∧
    (∀ a, 512 + p.length ≤ a → a < 4096 → (initializeWith font p s).mem.read a = 0)

/-- `initialize` of a program of more than 3584 bytes, from any state and for every `FONT`, copies no byte of it and ends
`FAULTED` with cause `LOAD_TOO_LARGE`, memory holding the font and zeros to 4095 and every other cell at its reset value
(R182, the spec's decision D25; the values of the cells of `ResetCells` as said there, D20). -/
def Obligations.InitializeRejectsALongProgram : Prop :=
  ∀ (font : Font) (p : List Byte) (s : State), 3584 < p.length →
    ResetCells (initializeWith font p s) ∧ (initializeWith font p s).run = .faulted ∧
    (initializeWith font p s).faultCause = .loadTooLarge ∧ (initializeWith font p s).mem.wf = true ∧
    (∀ (a : Nat) (h : a < 80), (initializeWith font p s).mem.read a = font[a]) ∧
    (∀ a, 80 ≤ a → a < 4096 → (initializeWith font p s).mem.read a = 0) ∧
    step (initializeWith font p s) = .next (initializeWith font p s)

/-- The state after reset: every cell as R26 says, and what `initialize` of no program leaves (the values of `ResetCells`
as said there). `State.reset` is the core with the default `FONT`, which is the model's PRESUMED table (log entry 1); with
any other `FONT` the state is `State.resetWith`. -/
def Obligations.ResetStateIsAsSpecified : Prop :=
  ResetCells State.reset ∧ State.reset.run = .running ∧ State.reset.faultCause = .none ∧
  (∀ (a : Nat) (h : a < 80), State.reset.mem.read a = defaultFont[a]) ∧
  (∀ a, 80 ≤ a → a < 4096 → State.reset.mem.read a = 0) ∧
  State.resetWith defaultFont = State.reset ∧
  (∀ font, initializeWith font [] State.reset = State.resetWith font)

/-! ## Invariants and isolation -/

/-- The invariant holds after reset, for every `FONT` (R26). -/
def Obligations.InvariantHoldsAtReset : Prop := Inv State.reset ∧ ∀ font, Inv (State.resetWith font)

/-- Every step keeps the invariant, from every state that meets it: memory keeps its canonical form, `pc` stays at most
0x10FE, each occupied slot holds a fetchable address, a stopped core has a cause and a precise record and a core that
has not stopped has none, and a core that awaits a key stands on the `Fx0A` that is in `ir` (R14, R15, R21 to R23, R151,
R152). -/
def Obligations.StepKeepsTheInvariant : Prop :=
  ∀ s t : State, Inv s → step s = .next t → Inv t

/-- Every schedule of the host's transactions, of a core with any `FONT`, keeps the invariant: resets, steps, ticks, key
writes and frame acknowledges in any order and any number (R28 to R30). -/
def Obligations.EveryScheduleKeepsTheInvariant : Prop :=
  ∀ (font : Font) (ts : List Transaction) (s t : State), Inv s → runSchedule font ts s = .next t → Inv t

/-- What only the host reads cannot reach a program: two states that differ at most in `sound`, `fb_dirty`, the fault
record and the diagnostics step to states that differ at most in those (R17, R23, R24, R153, R155). Both states hold the
same `draws`, so a `Cxnn` draws the same byte in both: that the byte is a function of that counter is the model's choice
(log entry 2). The diagnostics are a cell of State by the model's choice (log entry 4). -/
def Obligations.HostOnlyCellsDoNotReachTheProgram : Prop :=
  ∀ s s' t t' : State, s.mem.wf = true → s'.mem.wf = true →
    SameExcept [.sound, .fbDirty, .faultCause, .faultInfo, .diags] s s' → step s = .next t → step s' = .next t' →
    SameExcept [.sound, .fbDirty, .faultCause, .faultInfo, .diags] t t'

/-- `Fx29` finds the font: while memory is as `initialize` left it, and `V[x]` is `k` in 0 to 15, `I` becomes the address of
the five bytes of glyph `k` of the core's `FONT`, whatever bytes that holds (R42, R123, R180). -/
def Obligations.GlyphLookupFindsTheFont : Prop :=
  ∀ (font : Font) (p : List Byte) (s t : State) (x : Reg) (k : Nat) (hk : k < 16), p.length ≤ 3584 →
    t.mem = (initializeWith font p s).mem → (t.reg x).toNat = k →
    ∃ u, exec (.ldF x) t = .next u ∧ ∀ (j : Nat) (hj : j < 5), u.mem.read (u.i.toNat + j) = font[5 * k + j]'(by show _ < 80; omega)
end

