-- ==== Sys2Proof/Laws/State.lean ====
section
/-! SUPPORT. What each write of a cell leaves in each cell, and what each shared operation leaves unchanged. -/

namespace Sys2Proof.Machine

variable (s : State)

/-! ### `setV` -/

@[simp] theorem State.setV_v (x : Vector Byte 16) : (s.setV x).v = x := rfl
@[simp] theorem State.setV_i (x : Vector Byte 16) : (s.setV x).i = s.i := rfl
@[simp] theorem State.setV_pc (x : Vector Byte 16) : (s.setV x).pc = s.pc := rfl
@[simp] theorem State.setV_stack (x : Vector Byte 16) : (s.setV x).stack = s.stack := rfl
@[simp] theorem State.setV_sp (x : Vector Byte 16) : (s.setV x).sp = s.sp := rfl
@[simp] theorem State.setV_delay (x : Vector Byte 16) : (s.setV x).delay = s.delay := rfl
@[simp] theorem State.setV_sound (x : Vector Byte 16) : (s.setV x).sound = s.sound := rfl
@[simp] theorem State.setV_fb (x : Vector Byte 16) : (s.setV x).fb = s.fb := rfl
@[simp] theorem State.setV_mem (x : Vector Byte 16) : (s.setV x).mem = s.mem := rfl
@[simp] theorem State.setV_key (x : Vector Byte 16) : (s.setV x).key = s.key := rfl
@[simp] theorem State.setV_ir (x : Vector Byte 16) : (s.setV x).ir = s.ir := rfl
@[simp] theorem State.setV_run (x : Vector Byte 16) : (s.setV x).run = s.run := rfl
@[simp] theorem State.setV_faultCause (x : Vector Byte 16) : (s.setV x).faultCause = s.faultCause := rfl
@[simp] theorem State.setV_faultInfo (x : Vector Byte 16) : (s.setV x).faultInfo = s.faultInfo := rfl
@[simp] theorem State.setV_fbDirty (x : Vector Byte 16) : (s.setV x).fbDirty = s.fbDirty := rfl
@[simp] theorem State.setV_draws (x : Vector Byte 16) : (s.setV x).draws = s.draws := rfl
@[simp] theorem State.setV_diags (x : Vector Byte 16) : (s.setV x).diags = s.diags := rfl

/-! ### `setI` -/

@[simp] theorem State.setI_v (x : Word) : (s.setI x).v = s.v := rfl
@[simp] theorem State.setI_i (x : Word) : (s.setI x).i = x := rfl
@[simp] theorem State.setI_pc (x : Word) : (s.setI x).pc = s.pc := rfl
@[simp] theorem State.setI_stack (x : Word) : (s.setI x).stack = s.stack := rfl
@[simp] theorem State.setI_sp (x : Word) : (s.setI x).sp = s.sp := rfl
@[simp] theorem State.setI_delay (x : Word) : (s.setI x).delay = s.delay := rfl
@[simp] theorem State.setI_sound (x : Word) : (s.setI x).sound = s.sound := rfl
@[simp] theorem State.setI_fb (x : Word) : (s.setI x).fb = s.fb := rfl
@[simp] theorem State.setI_mem (x : Word) : (s.setI x).mem = s.mem := rfl
@[simp] theorem State.setI_key (x : Word) : (s.setI x).key = s.key := rfl
@[simp] theorem State.setI_ir (x : Word) : (s.setI x).ir = s.ir := rfl
@[simp] theorem State.setI_run (x : Word) : (s.setI x).run = s.run := rfl
@[simp] theorem State.setI_faultCause (x : Word) : (s.setI x).faultCause = s.faultCause := rfl
@[simp] theorem State.setI_faultInfo (x : Word) : (s.setI x).faultInfo = s.faultInfo := rfl
@[simp] theorem State.setI_fbDirty (x : Word) : (s.setI x).fbDirty = s.fbDirty := rfl
@[simp] theorem State.setI_draws (x : Word) : (s.setI x).draws = s.draws := rfl
@[simp] theorem State.setI_diags (x : Word) : (s.setI x).diags = s.diags := rfl

/-! ### `setPc` -/

@[simp] theorem State.setPc_v (x : Word) : (s.setPc x).v = s.v := rfl
@[simp] theorem State.setPc_i (x : Word) : (s.setPc x).i = s.i := rfl
@[simp] theorem State.setPc_pc (x : Word) : (s.setPc x).pc = x := rfl
@[simp] theorem State.setPc_stack (x : Word) : (s.setPc x).stack = s.stack := rfl
@[simp] theorem State.setPc_sp (x : Word) : (s.setPc x).sp = s.sp := rfl
@[simp] theorem State.setPc_delay (x : Word) : (s.setPc x).delay = s.delay := rfl
@[simp] theorem State.setPc_sound (x : Word) : (s.setPc x).sound = s.sound := rfl
@[simp] theorem State.setPc_fb (x : Word) : (s.setPc x).fb = s.fb := rfl
@[simp] theorem State.setPc_mem (x : Word) : (s.setPc x).mem = s.mem := rfl
@[simp] theorem State.setPc_key (x : Word) : (s.setPc x).key = s.key := rfl
@[simp] theorem State.setPc_ir (x : Word) : (s.setPc x).ir = s.ir := rfl
@[simp] theorem State.setPc_run (x : Word) : (s.setPc x).run = s.run := rfl
@[simp] theorem State.setPc_faultCause (x : Word) : (s.setPc x).faultCause = s.faultCause := rfl
@[simp] theorem State.setPc_faultInfo (x : Word) : (s.setPc x).faultInfo = s.faultInfo := rfl
@[simp] theorem State.setPc_fbDirty (x : Word) : (s.setPc x).fbDirty = s.fbDirty := rfl
@[simp] theorem State.setPc_draws (x : Word) : (s.setPc x).draws = s.draws := rfl
@[simp] theorem State.setPc_diags (x : Word) : (s.setPc x).diags = s.diags := rfl

/-! ### `setStack` -/

@[simp] theorem State.setStack_v (x : Vector Word 16) : (s.setStack x).v = s.v := rfl
@[simp] theorem State.setStack_i (x : Vector Word 16) : (s.setStack x).i = s.i := rfl
@[simp] theorem State.setStack_pc (x : Vector Word 16) : (s.setStack x).pc = s.pc := rfl
@[simp] theorem State.setStack_stack (x : Vector Word 16) : (s.setStack x).stack = x := rfl
@[simp] theorem State.setStack_sp (x : Vector Word 16) : (s.setStack x).sp = s.sp := rfl
@[simp] theorem State.setStack_delay (x : Vector Word 16) : (s.setStack x).delay = s.delay := rfl
@[simp] theorem State.setStack_sound (x : Vector Word 16) : (s.setStack x).sound = s.sound := rfl
@[simp] theorem State.setStack_fb (x : Vector Word 16) : (s.setStack x).fb = s.fb := rfl
@[simp] theorem State.setStack_mem (x : Vector Word 16) : (s.setStack x).mem = s.mem := rfl
@[simp] theorem State.setStack_key (x : Vector Word 16) : (s.setStack x).key = s.key := rfl
@[simp] theorem State.setStack_ir (x : Vector Word 16) : (s.setStack x).ir = s.ir := rfl
@[simp] theorem State.setStack_run (x : Vector Word 16) : (s.setStack x).run = s.run := rfl
@[simp] theorem State.setStack_faultCause (x : Vector Word 16) : (s.setStack x).faultCause = s.faultCause := rfl
@[simp] theorem State.setStack_faultInfo (x : Vector Word 16) : (s.setStack x).faultInfo = s.faultInfo := rfl
@[simp] theorem State.setStack_fbDirty (x : Vector Word 16) : (s.setStack x).fbDirty = s.fbDirty := rfl
@[simp] theorem State.setStack_draws (x : Vector Word 16) : (s.setStack x).draws = s.draws := rfl
@[simp] theorem State.setStack_diags (x : Vector Word 16) : (s.setStack x).diags = s.diags := rfl

/-! ### `setSp` -/

@[simp] theorem State.setSp_v (x : Fin 17) : (s.setSp x).v = s.v := rfl
@[simp] theorem State.setSp_i (x : Fin 17) : (s.setSp x).i = s.i := rfl
@[simp] theorem State.setSp_pc (x : Fin 17) : (s.setSp x).pc = s.pc := rfl
@[simp] theorem State.setSp_stack (x : Fin 17) : (s.setSp x).stack = s.stack := rfl
@[simp] theorem State.setSp_sp (x : Fin 17) : (s.setSp x).sp = x := rfl
@[simp] theorem State.setSp_delay (x : Fin 17) : (s.setSp x).delay = s.delay := rfl
@[simp] theorem State.setSp_sound (x : Fin 17) : (s.setSp x).sound = s.sound := rfl
@[simp] theorem State.setSp_fb (x : Fin 17) : (s.setSp x).fb = s.fb := rfl
@[simp] theorem State.setSp_mem (x : Fin 17) : (s.setSp x).mem = s.mem := rfl
@[simp] theorem State.setSp_key (x : Fin 17) : (s.setSp x).key = s.key := rfl
@[simp] theorem State.setSp_ir (x : Fin 17) : (s.setSp x).ir = s.ir := rfl
@[simp] theorem State.setSp_run (x : Fin 17) : (s.setSp x).run = s.run := rfl
@[simp] theorem State.setSp_faultCause (x : Fin 17) : (s.setSp x).faultCause = s.faultCause := rfl
@[simp] theorem State.setSp_faultInfo (x : Fin 17) : (s.setSp x).faultInfo = s.faultInfo := rfl
@[simp] theorem State.setSp_fbDirty (x : Fin 17) : (s.setSp x).fbDirty = s.fbDirty := rfl
@[simp] theorem State.setSp_draws (x : Fin 17) : (s.setSp x).draws = s.draws := rfl
@[simp] theorem State.setSp_diags (x : Fin 17) : (s.setSp x).diags = s.diags := rfl

/-! ### `setDelay` -/

@[simp] theorem State.setDelay_v (x : Byte) : (s.setDelay x).v = s.v := rfl
@[simp] theorem State.setDelay_i (x : Byte) : (s.setDelay x).i = s.i := rfl
@[simp] theorem State.setDelay_pc (x : Byte) : (s.setDelay x).pc = s.pc := rfl
@[simp] theorem State.setDelay_stack (x : Byte) : (s.setDelay x).stack = s.stack := rfl
@[simp] theorem State.setDelay_sp (x : Byte) : (s.setDelay x).sp = s.sp := rfl
@[simp] theorem State.setDelay_delay (x : Byte) : (s.setDelay x).delay = x := rfl
@[simp] theorem State.setDelay_sound (x : Byte) : (s.setDelay x).sound = s.sound := rfl
@[simp] theorem State.setDelay_fb (x : Byte) : (s.setDelay x).fb = s.fb := rfl
@[simp] theorem State.setDelay_mem (x : Byte) : (s.setDelay x).mem = s.mem := rfl
@[simp] theorem State.setDelay_key (x : Byte) : (s.setDelay x).key = s.key := rfl
@[simp] theorem State.setDelay_ir (x : Byte) : (s.setDelay x).ir = s.ir := rfl
@[simp] theorem State.setDelay_run (x : Byte) : (s.setDelay x).run = s.run := rfl
@[simp] theorem State.setDelay_faultCause (x : Byte) : (s.setDelay x).faultCause = s.faultCause := rfl
@[simp] theorem State.setDelay_faultInfo (x : Byte) : (s.setDelay x).faultInfo = s.faultInfo := rfl
@[simp] theorem State.setDelay_fbDirty (x : Byte) : (s.setDelay x).fbDirty = s.fbDirty := rfl
@[simp] theorem State.setDelay_draws (x : Byte) : (s.setDelay x).draws = s.draws := rfl
@[simp] theorem State.setDelay_diags (x : Byte) : (s.setDelay x).diags = s.diags := rfl

/-! ### `setSound` -/

@[simp] theorem State.setSound_v (x : Byte) : (s.setSound x).v = s.v := rfl
@[simp] theorem State.setSound_i (x : Byte) : (s.setSound x).i = s.i := rfl
@[simp] theorem State.setSound_pc (x : Byte) : (s.setSound x).pc = s.pc := rfl
@[simp] theorem State.setSound_stack (x : Byte) : (s.setSound x).stack = s.stack := rfl
@[simp] theorem State.setSound_sp (x : Byte) : (s.setSound x).sp = s.sp := rfl
@[simp] theorem State.setSound_delay (x : Byte) : (s.setSound x).delay = s.delay := rfl
@[simp] theorem State.setSound_sound (x : Byte) : (s.setSound x).sound = x := rfl
@[simp] theorem State.setSound_fb (x : Byte) : (s.setSound x).fb = s.fb := rfl
@[simp] theorem State.setSound_mem (x : Byte) : (s.setSound x).mem = s.mem := rfl
@[simp] theorem State.setSound_key (x : Byte) : (s.setSound x).key = s.key := rfl
@[simp] theorem State.setSound_ir (x : Byte) : (s.setSound x).ir = s.ir := rfl
@[simp] theorem State.setSound_run (x : Byte) : (s.setSound x).run = s.run := rfl
@[simp] theorem State.setSound_faultCause (x : Byte) : (s.setSound x).faultCause = s.faultCause := rfl
@[simp] theorem State.setSound_faultInfo (x : Byte) : (s.setSound x).faultInfo = s.faultInfo := rfl
@[simp] theorem State.setSound_fbDirty (x : Byte) : (s.setSound x).fbDirty = s.fbDirty := rfl
@[simp] theorem State.setSound_draws (x : Byte) : (s.setSound x).draws = s.draws := rfl
@[simp] theorem State.setSound_diags (x : Byte) : (s.setSound x).diags = s.diags := rfl

/-! ### `setFb` -/

@[simp] theorem State.setFb_v (x : Framebuffer) : (s.setFb x).v = s.v := rfl
@[simp] theorem State.setFb_i (x : Framebuffer) : (s.setFb x).i = s.i := rfl
@[simp] theorem State.setFb_pc (x : Framebuffer) : (s.setFb x).pc = s.pc := rfl
@[simp] theorem State.setFb_stack (x : Framebuffer) : (s.setFb x).stack = s.stack := rfl
@[simp] theorem State.setFb_sp (x : Framebuffer) : (s.setFb x).sp = s.sp := rfl
@[simp] theorem State.setFb_delay (x : Framebuffer) : (s.setFb x).delay = s.delay := rfl
@[simp] theorem State.setFb_sound (x : Framebuffer) : (s.setFb x).sound = s.sound := rfl
@[simp] theorem State.setFb_fb (x : Framebuffer) : (s.setFb x).fb = x := rfl
@[simp] theorem State.setFb_mem (x : Framebuffer) : (s.setFb x).mem = s.mem := rfl
@[simp] theorem State.setFb_key (x : Framebuffer) : (s.setFb x).key = s.key := rfl
@[simp] theorem State.setFb_ir (x : Framebuffer) : (s.setFb x).ir = s.ir := rfl
@[simp] theorem State.setFb_run (x : Framebuffer) : (s.setFb x).run = s.run := rfl
@[simp] theorem State.setFb_faultCause (x : Framebuffer) : (s.setFb x).faultCause = s.faultCause := rfl
@[simp] theorem State.setFb_faultInfo (x : Framebuffer) : (s.setFb x).faultInfo = s.faultInfo := rfl
@[simp] theorem State.setFb_fbDirty (x : Framebuffer) : (s.setFb x).fbDirty = s.fbDirty := rfl
@[simp] theorem State.setFb_draws (x : Framebuffer) : (s.setFb x).draws = s.draws := rfl
@[simp] theorem State.setFb_diags (x : Framebuffer) : (s.setFb x).diags = s.diags := rfl

/-! ### `setMem` -/

@[simp] theorem State.setMem_v (x : Memory) : (s.setMem x).v = s.v := rfl
@[simp] theorem State.setMem_i (x : Memory) : (s.setMem x).i = s.i := rfl
@[simp] theorem State.setMem_pc (x : Memory) : (s.setMem x).pc = s.pc := rfl
@[simp] theorem State.setMem_stack (x : Memory) : (s.setMem x).stack = s.stack := rfl
@[simp] theorem State.setMem_sp (x : Memory) : (s.setMem x).sp = s.sp := rfl
@[simp] theorem State.setMem_delay (x : Memory) : (s.setMem x).delay = s.delay := rfl
@[simp] theorem State.setMem_sound (x : Memory) : (s.setMem x).sound = s.sound := rfl
@[simp] theorem State.setMem_fb (x : Memory) : (s.setMem x).fb = s.fb := rfl
@[simp] theorem State.setMem_mem (x : Memory) : (s.setMem x).mem = x := rfl
@[simp] theorem State.setMem_key (x : Memory) : (s.setMem x).key = s.key := rfl
@[simp] theorem State.setMem_ir (x : Memory) : (s.setMem x).ir = s.ir := rfl
@[simp] theorem State.setMem_run (x : Memory) : (s.setMem x).run = s.run := rfl
@[simp] theorem State.setMem_faultCause (x : Memory) : (s.setMem x).faultCause = s.faultCause := rfl
@[simp] theorem State.setMem_faultInfo (x : Memory) : (s.setMem x).faultInfo = s.faultInfo := rfl
@[simp] theorem State.setMem_fbDirty (x : Memory) : (s.setMem x).fbDirty = s.fbDirty := rfl
@[simp] theorem State.setMem_draws (x : Memory) : (s.setMem x).draws = s.draws := rfl
@[simp] theorem State.setMem_diags (x : Memory) : (s.setMem x).diags = s.diags := rfl

/-! ### `setKey` -/

@[simp] theorem State.setKey_v (x : Option Byte) : (s.setKey x).v = s.v := rfl
@[simp] theorem State.setKey_i (x : Option Byte) : (s.setKey x).i = s.i := rfl
@[simp] theorem State.setKey_pc (x : Option Byte) : (s.setKey x).pc = s.pc := rfl
@[simp] theorem State.setKey_stack (x : Option Byte) : (s.setKey x).stack = s.stack := rfl
@[simp] theorem State.setKey_sp (x : Option Byte) : (s.setKey x).sp = s.sp := rfl
@[simp] theorem State.setKey_delay (x : Option Byte) : (s.setKey x).delay = s.delay := rfl
@[simp] theorem State.setKey_sound (x : Option Byte) : (s.setKey x).sound = s.sound := rfl
@[simp] theorem State.setKey_fb (x : Option Byte) : (s.setKey x).fb = s.fb := rfl
@[simp] theorem State.setKey_mem (x : Option Byte) : (s.setKey x).mem = s.mem := rfl
@[simp] theorem State.setKey_key (x : Option Byte) : (s.setKey x).key = x := rfl
@[simp] theorem State.setKey_ir (x : Option Byte) : (s.setKey x).ir = s.ir := rfl
@[simp] theorem State.setKey_run (x : Option Byte) : (s.setKey x).run = s.run := rfl
@[simp] theorem State.setKey_faultCause (x : Option Byte) : (s.setKey x).faultCause = s.faultCause := rfl
@[simp] theorem State.setKey_faultInfo (x : Option Byte) : (s.setKey x).faultInfo = s.faultInfo := rfl
@[simp] theorem State.setKey_fbDirty (x : Option Byte) : (s.setKey x).fbDirty = s.fbDirty := rfl
@[simp] theorem State.setKey_draws (x : Option Byte) : (s.setKey x).draws = s.draws := rfl
@[simp] theorem State.setKey_diags (x : Option Byte) : (s.setKey x).diags = s.diags := rfl

/-! ### `setIr` -/

@[simp] theorem State.setIr_v (x : Word) : (s.setIr x).v = s.v := rfl
@[simp] theorem State.setIr_i (x : Word) : (s.setIr x).i = s.i := rfl
@[simp] theorem State.setIr_pc (x : Word) : (s.setIr x).pc = s.pc := rfl
@[simp] theorem State.setIr_stack (x : Word) : (s.setIr x).stack = s.stack := rfl
@[simp] theorem State.setIr_sp (x : Word) : (s.setIr x).sp = s.sp := rfl
@[simp] theorem State.setIr_delay (x : Word) : (s.setIr x).delay = s.delay := rfl
@[simp] theorem State.setIr_sound (x : Word) : (s.setIr x).sound = s.sound := rfl
@[simp] theorem State.setIr_fb (x : Word) : (s.setIr x).fb = s.fb := rfl
@[simp] theorem State.setIr_mem (x : Word) : (s.setIr x).mem = s.mem := rfl
@[simp] theorem State.setIr_key (x : Word) : (s.setIr x).key = s.key := rfl
@[simp] theorem State.setIr_ir (x : Word) : (s.setIr x).ir = x := rfl
@[simp] theorem State.setIr_run (x : Word) : (s.setIr x).run = s.run := rfl
@[simp] theorem State.setIr_faultCause (x : Word) : (s.setIr x).faultCause = s.faultCause := rfl
@[simp] theorem State.setIr_faultInfo (x : Word) : (s.setIr x).faultInfo = s.faultInfo := rfl
@[simp] theorem State.setIr_fbDirty (x : Word) : (s.setIr x).fbDirty = s.fbDirty := rfl
@[simp] theorem State.setIr_draws (x : Word) : (s.setIr x).draws = s.draws := rfl
@[simp] theorem State.setIr_diags (x : Word) : (s.setIr x).diags = s.diags := rfl

/-! ### `setRun` -/

@[simp] theorem State.setRun_v (x : RunState) : (s.setRun x).v = s.v := rfl
@[simp] theorem State.setRun_i (x : RunState) : (s.setRun x).i = s.i := rfl
@[simp] theorem State.setRun_pc (x : RunState) : (s.setRun x).pc = s.pc := rfl
@[simp] theorem State.setRun_stack (x : RunState) : (s.setRun x).stack = s.stack := rfl
@[simp] theorem State.setRun_sp (x : RunState) : (s.setRun x).sp = s.sp := rfl
@[simp] theorem State.setRun_delay (x : RunState) : (s.setRun x).delay = s.delay := rfl
@[simp] theorem State.setRun_sound (x : RunState) : (s.setRun x).sound = s.sound := rfl
@[simp] theorem State.setRun_fb (x : RunState) : (s.setRun x).fb = s.fb := rfl
@[simp] theorem State.setRun_mem (x : RunState) : (s.setRun x).mem = s.mem := rfl
@[simp] theorem State.setRun_key (x : RunState) : (s.setRun x).key = s.key := rfl
@[simp] theorem State.setRun_ir (x : RunState) : (s.setRun x).ir = s.ir := rfl
@[simp] theorem State.setRun_run (x : RunState) : (s.setRun x).run = x := rfl
@[simp] theorem State.setRun_faultCause (x : RunState) : (s.setRun x).faultCause = s.faultCause := rfl
@[simp] theorem State.setRun_faultInfo (x : RunState) : (s.setRun x).faultInfo = s.faultInfo := rfl
@[simp] theorem State.setRun_fbDirty (x : RunState) : (s.setRun x).fbDirty = s.fbDirty := rfl
@[simp] theorem State.setRun_draws (x : RunState) : (s.setRun x).draws = s.draws := rfl
@[simp] theorem State.setRun_diags (x : RunState) : (s.setRun x).diags = s.diags := rfl

/-! ### `setFaultCause` -/

@[simp] theorem State.setFaultCause_v (x : FaultCause) : (s.setFaultCause x).v = s.v := rfl
@[simp] theorem State.setFaultCause_i (x : FaultCause) : (s.setFaultCause x).i = s.i := rfl
@[simp] theorem State.setFaultCause_pc (x : FaultCause) : (s.setFaultCause x).pc = s.pc := rfl
@[simp] theorem State.setFaultCause_stack (x : FaultCause) : (s.setFaultCause x).stack = s.stack := rfl
@[simp] theorem State.setFaultCause_sp (x : FaultCause) : (s.setFaultCause x).sp = s.sp := rfl
@[simp] theorem State.setFaultCause_delay (x : FaultCause) : (s.setFaultCause x).delay = s.delay := rfl
@[simp] theorem State.setFaultCause_sound (x : FaultCause) : (s.setFaultCause x).sound = s.sound := rfl
@[simp] theorem State.setFaultCause_fb (x : FaultCause) : (s.setFaultCause x).fb = s.fb := rfl
@[simp] theorem State.setFaultCause_mem (x : FaultCause) : (s.setFaultCause x).mem = s.mem := rfl
@[simp] theorem State.setFaultCause_key (x : FaultCause) : (s.setFaultCause x).key = s.key := rfl
@[simp] theorem State.setFaultCause_ir (x : FaultCause) : (s.setFaultCause x).ir = s.ir := rfl
@[simp] theorem State.setFaultCause_run (x : FaultCause) : (s.setFaultCause x).run = s.run := rfl
@[simp] theorem State.setFaultCause_faultCause (x : FaultCause) : (s.setFaultCause x).faultCause = x := rfl
@[simp] theorem State.setFaultCause_faultInfo (x : FaultCause) : (s.setFaultCause x).faultInfo = s.faultInfo := rfl
@[simp] theorem State.setFaultCause_fbDirty (x : FaultCause) : (s.setFaultCause x).fbDirty = s.fbDirty := rfl
@[simp] theorem State.setFaultCause_draws (x : FaultCause) : (s.setFaultCause x).draws = s.draws := rfl
@[simp] theorem State.setFaultCause_diags (x : FaultCause) : (s.setFaultCause x).diags = s.diags := rfl

/-! ### `setFaultInfo` -/

@[simp] theorem State.setFaultInfo_v (x : FaultInfo) : (s.setFaultInfo x).v = s.v := rfl
@[simp] theorem State.setFaultInfo_i (x : FaultInfo) : (s.setFaultInfo x).i = s.i := rfl
@[simp] theorem State.setFaultInfo_pc (x : FaultInfo) : (s.setFaultInfo x).pc = s.pc := rfl
@[simp] theorem State.setFaultInfo_stack (x : FaultInfo) : (s.setFaultInfo x).stack = s.stack := rfl
@[simp] theorem State.setFaultInfo_sp (x : FaultInfo) : (s.setFaultInfo x).sp = s.sp := rfl
@[simp] theorem State.setFaultInfo_delay (x : FaultInfo) : (s.setFaultInfo x).delay = s.delay := rfl
@[simp] theorem State.setFaultInfo_sound (x : FaultInfo) : (s.setFaultInfo x).sound = s.sound := rfl
@[simp] theorem State.setFaultInfo_fb (x : FaultInfo) : (s.setFaultInfo x).fb = s.fb := rfl
@[simp] theorem State.setFaultInfo_mem (x : FaultInfo) : (s.setFaultInfo x).mem = s.mem := rfl
@[simp] theorem State.setFaultInfo_key (x : FaultInfo) : (s.setFaultInfo x).key = s.key := rfl
@[simp] theorem State.setFaultInfo_ir (x : FaultInfo) : (s.setFaultInfo x).ir = s.ir := rfl
@[simp] theorem State.setFaultInfo_run (x : FaultInfo) : (s.setFaultInfo x).run = s.run := rfl
@[simp] theorem State.setFaultInfo_faultCause (x : FaultInfo) : (s.setFaultInfo x).faultCause = s.faultCause := rfl
@[simp] theorem State.setFaultInfo_faultInfo (x : FaultInfo) : (s.setFaultInfo x).faultInfo = x := rfl
@[simp] theorem State.setFaultInfo_fbDirty (x : FaultInfo) : (s.setFaultInfo x).fbDirty = s.fbDirty := rfl
@[simp] theorem State.setFaultInfo_draws (x : FaultInfo) : (s.setFaultInfo x).draws = s.draws := rfl
@[simp] theorem State.setFaultInfo_diags (x : FaultInfo) : (s.setFaultInfo x).diags = s.diags := rfl

/-! ### `setFbDirty` -/

@[simp] theorem State.setFbDirty_v (x : Bool) : (s.setFbDirty x).v = s.v := rfl
@[simp] theorem State.setFbDirty_i (x : Bool) : (s.setFbDirty x).i = s.i := rfl
@[simp] theorem State.setFbDirty_pc (x : Bool) : (s.setFbDirty x).pc = s.pc := rfl
@[simp] theorem State.setFbDirty_stack (x : Bool) : (s.setFbDirty x).stack = s.stack := rfl
@[simp] theorem State.setFbDirty_sp (x : Bool) : (s.setFbDirty x).sp = s.sp := rfl
@[simp] theorem State.setFbDirty_delay (x : Bool) : (s.setFbDirty x).delay = s.delay := rfl
@[simp] theorem State.setFbDirty_sound (x : Bool) : (s.setFbDirty x).sound = s.sound := rfl
@[simp] theorem State.setFbDirty_fb (x : Bool) : (s.setFbDirty x).fb = s.fb := rfl
@[simp] theorem State.setFbDirty_mem (x : Bool) : (s.setFbDirty x).mem = s.mem := rfl
@[simp] theorem State.setFbDirty_key (x : Bool) : (s.setFbDirty x).key = s.key := rfl
@[simp] theorem State.setFbDirty_ir (x : Bool) : (s.setFbDirty x).ir = s.ir := rfl
@[simp] theorem State.setFbDirty_run (x : Bool) : (s.setFbDirty x).run = s.run := rfl
@[simp] theorem State.setFbDirty_faultCause (x : Bool) : (s.setFbDirty x).faultCause = s.faultCause := rfl
@[simp] theorem State.setFbDirty_faultInfo (x : Bool) : (s.setFbDirty x).faultInfo = s.faultInfo := rfl
@[simp] theorem State.setFbDirty_fbDirty (x : Bool) : (s.setFbDirty x).fbDirty = x := rfl
@[simp] theorem State.setFbDirty_draws (x : Bool) : (s.setFbDirty x).draws = s.draws := rfl
@[simp] theorem State.setFbDirty_diags (x : Bool) : (s.setFbDirty x).diags = s.diags := rfl

/-! ### `setDraws` -/

@[simp] theorem State.setDraws_v (x : Nat) : (s.setDraws x).v = s.v := rfl
@[simp] theorem State.setDraws_i (x : Nat) : (s.setDraws x).i = s.i := rfl
@[simp] theorem State.setDraws_pc (x : Nat) : (s.setDraws x).pc = s.pc := rfl
@[simp] theorem State.setDraws_stack (x : Nat) : (s.setDraws x).stack = s.stack := rfl
@[simp] theorem State.setDraws_sp (x : Nat) : (s.setDraws x).sp = s.sp := rfl
@[simp] theorem State.setDraws_delay (x : Nat) : (s.setDraws x).delay = s.delay := rfl
@[simp] theorem State.setDraws_sound (x : Nat) : (s.setDraws x).sound = s.sound := rfl
@[simp] theorem State.setDraws_fb (x : Nat) : (s.setDraws x).fb = s.fb := rfl
@[simp] theorem State.setDraws_mem (x : Nat) : (s.setDraws x).mem = s.mem := rfl
@[simp] theorem State.setDraws_key (x : Nat) : (s.setDraws x).key = s.key := rfl
@[simp] theorem State.setDraws_ir (x : Nat) : (s.setDraws x).ir = s.ir := rfl
@[simp] theorem State.setDraws_run (x : Nat) : (s.setDraws x).run = s.run := rfl
@[simp] theorem State.setDraws_faultCause (x : Nat) : (s.setDraws x).faultCause = s.faultCause := rfl
@[simp] theorem State.setDraws_faultInfo (x : Nat) : (s.setDraws x).faultInfo = s.faultInfo := rfl
@[simp] theorem State.setDraws_fbDirty (x : Nat) : (s.setDraws x).fbDirty = s.fbDirty := rfl
@[simp] theorem State.setDraws_draws (x : Nat) : (s.setDraws x).draws = x := rfl
@[simp] theorem State.setDraws_diags (x : Nat) : (s.setDraws x).diags = s.diags := rfl

/-! ### `setDiags` -/

@[simp] theorem State.setDiags_v (x : List Diag) : (s.setDiags x).v = s.v := rfl
@[simp] theorem State.setDiags_i (x : List Diag) : (s.setDiags x).i = s.i := rfl
@[simp] theorem State.setDiags_pc (x : List Diag) : (s.setDiags x).pc = s.pc := rfl
@[simp] theorem State.setDiags_stack (x : List Diag) : (s.setDiags x).stack = s.stack := rfl
@[simp] theorem State.setDiags_sp (x : List Diag) : (s.setDiags x).sp = s.sp := rfl
@[simp] theorem State.setDiags_delay (x : List Diag) : (s.setDiags x).delay = s.delay := rfl
@[simp] theorem State.setDiags_sound (x : List Diag) : (s.setDiags x).sound = s.sound := rfl
@[simp] theorem State.setDiags_fb (x : List Diag) : (s.setDiags x).fb = s.fb := rfl
@[simp] theorem State.setDiags_mem (x : List Diag) : (s.setDiags x).mem = s.mem := rfl
@[simp] theorem State.setDiags_key (x : List Diag) : (s.setDiags x).key = s.key := rfl
@[simp] theorem State.setDiags_ir (x : List Diag) : (s.setDiags x).ir = s.ir := rfl
@[simp] theorem State.setDiags_run (x : List Diag) : (s.setDiags x).run = s.run := rfl
@[simp] theorem State.setDiags_faultCause (x : List Diag) : (s.setDiags x).faultCause = s.faultCause := rfl
@[simp] theorem State.setDiags_faultInfo (x : List Diag) : (s.setDiags x).faultInfo = s.faultInfo := rfl
@[simp] theorem State.setDiags_fbDirty (x : List Diag) : (s.setDiags x).fbDirty = s.fbDirty := rfl
@[simp] theorem State.setDiags_draws (x : List Diag) : (s.setDiags x).draws = s.draws := rfl
@[simp] theorem State.setDiags_diags (x : List Diag) : (s.setDiags x).diags = x := rfl

/-! ### Frames of the shared operations: the cells each leaves unchanged -/

@[simp] theorem State.setReg_frame (r : Reg) (b : Byte) :
    (s.setReg r b).i = s.i ∧
      (s.setReg r b).pc = s.pc ∧
      (s.setReg r b).stack = s.stack ∧
      (s.setReg r b).sp = s.sp ∧
      (s.setReg r b).delay = s.delay ∧
      (s.setReg r b).sound = s.sound ∧
      (s.setReg r b).fb = s.fb ∧
      (s.setReg r b).mem = s.mem ∧
      (s.setReg r b).key = s.key ∧
      (s.setReg r b).ir = s.ir ∧
      (s.setReg r b).run = s.run ∧
      (s.setReg r b).faultCause = s.faultCause ∧
      (s.setReg r b).faultInfo = s.faultInfo ∧
      (s.setReg r b).fbDirty = s.fbDirty ∧
      (s.setReg r b).draws = s.draws ∧
      (s.setReg r b).diags = s.diags := by
  refine ⟨rfl, rfl, rfl, rfl, rfl, rfl, rfl, rfl, rfl, rfl, rfl, rfl, rfl, rfl, rfl, rfl⟩

@[simp] theorem State.loadRegs_frame (bs : List Byte) :
    (s.loadRegs bs).i = s.i ∧
      (s.loadRegs bs).pc = s.pc ∧
      (s.loadRegs bs).stack = s.stack ∧
      (s.loadRegs bs).sp = s.sp ∧
      (s.loadRegs bs).delay = s.delay ∧
      (s.loadRegs bs).sound = s.sound ∧
      (s.loadRegs bs).fb = s.fb ∧
      (s.loadRegs bs).mem = s.mem ∧
      (s.loadRegs bs).key = s.key ∧
      (s.loadRegs bs).ir = s.ir ∧
      (s.loadRegs bs).run = s.run ∧
      (s.loadRegs bs).faultCause = s.faultCause ∧
      (s.loadRegs bs).faultInfo = s.faultInfo ∧
      (s.loadRegs bs).fbDirty = s.fbDirty ∧
      (s.loadRegs bs).draws = s.draws ∧
      (s.loadRegs bs).diags = s.diags := by
  simp [State.loadRegs]

@[simp] theorem State.writeFlagThenResult_frame (x : Reg) (c : Bool) (b : Byte) :
    (s.writeFlagThenResult x c b).i = s.i ∧
      (s.writeFlagThenResult x c b).pc = s.pc ∧
      (s.writeFlagThenResult x c b).stack = s.stack ∧
      (s.writeFlagThenResult x c b).sp = s.sp ∧
      (s.writeFlagThenResult x c b).delay = s.delay ∧
      (s.writeFlagThenResult x c b).sound = s.sound ∧
      (s.writeFlagThenResult x c b).fb = s.fb ∧
      (s.writeFlagThenResult x c b).mem = s.mem ∧
      (s.writeFlagThenResult x c b).key = s.key ∧
      (s.writeFlagThenResult x c b).ir = s.ir ∧
      (s.writeFlagThenResult x c b).run = s.run ∧
      (s.writeFlagThenResult x c b).faultCause = s.faultCause ∧
      (s.writeFlagThenResult x c b).faultInfo = s.faultInfo ∧
      (s.writeFlagThenResult x c b).fbDirty = s.fbDirty ∧
      (s.writeFlagThenResult x c b).draws = s.draws ∧
      (s.writeFlagThenResult x c b).diags = s.diags := by
  refine ⟨rfl, rfl, rfl, rfl, rfl, rfl, rfl, rfl, rfl, rfl, rfl, rfl, rfl, rfl, rfl, rfl⟩

@[simp] theorem State.raise_frame (c : FaultCause) (n : FaultInfo) :
    (s.raise c n).v = s.v ∧
      (s.raise c n).i = s.i ∧
      (s.raise c n).pc = s.pc ∧
      (s.raise c n).stack = s.stack ∧
      (s.raise c n).sp = s.sp ∧
      (s.raise c n).delay = s.delay ∧
      (s.raise c n).sound = s.sound ∧
      (s.raise c n).fb = s.fb ∧
      (s.raise c n).mem = s.mem ∧
      (s.raise c n).key = s.key ∧
      (s.raise c n).ir = s.ir ∧
      (s.raise c n).fbDirty = s.fbDirty ∧
      (s.raise c n).draws = s.draws ∧
      (s.raise c n).diags = s.diags := by
  refine ⟨rfl, rfl, rfl, rfl, rfl, rfl, rfl, rfl, rfl, rfl, rfl, rfl, rfl, rfl⟩

@[simp] theorem State.raiseData_frame :
    (s.raiseData).v = s.v ∧
      (s.raiseData).i = s.i ∧
      (s.raiseData).pc = s.pc ∧
      (s.raiseData).stack = s.stack ∧
      (s.raiseData).sp = s.sp ∧
      (s.raiseData).delay = s.delay ∧
      (s.raiseData).sound = s.sound ∧
      (s.raiseData).fb = s.fb ∧
      (s.raiseData).mem = s.mem ∧
      (s.raiseData).key = s.key ∧
      (s.raiseData).ir = s.ir ∧
      (s.raiseData).fbDirty = s.fbDirty ∧
      (s.raiseData).draws = s.draws ∧
      (s.raiseData).diags = s.diags := by
  refine ⟨rfl, rfl, rfl, rfl, rfl, rfl, rfl, rfl, rfl, rfl, rfl, rfl, rfl, rfl⟩

@[simp] theorem State.raiseFetch_frame :
    (s.raiseFetch).v = s.v ∧
      (s.raiseFetch).i = s.i ∧
      (s.raiseFetch).pc = s.pc ∧
      (s.raiseFetch).stack = s.stack ∧
      (s.raiseFetch).sp = s.sp ∧
      (s.raiseFetch).delay = s.delay ∧
      (s.raiseFetch).sound = s.sound ∧
      (s.raiseFetch).fb = s.fb ∧
      (s.raiseFetch).mem = s.mem ∧
      (s.raiseFetch).key = s.key ∧
      (s.raiseFetch).ir = s.ir ∧
      (s.raiseFetch).fbDirty = s.fbDirty ∧
      (s.raiseFetch).draws = s.draws ∧
      (s.raiseFetch).diags = s.diags := by
  refine ⟨rfl, rfl, rfl, rfl, rfl, rfl, rfl, rfl, rfl, rfl, rfl, rfl, rfl, rfl⟩

@[simp] theorem State.emit_frame (d : Diag) :
    (s.emit d).v = s.v ∧
      (s.emit d).i = s.i ∧
      (s.emit d).pc = s.pc ∧
      (s.emit d).stack = s.stack ∧
      (s.emit d).sp = s.sp ∧
      (s.emit d).delay = s.delay ∧
      (s.emit d).sound = s.sound ∧
      (s.emit d).fb = s.fb ∧
      (s.emit d).mem = s.mem ∧
      (s.emit d).key = s.key ∧
      (s.emit d).ir = s.ir ∧
      (s.emit d).run = s.run ∧
      (s.emit d).faultCause = s.faultCause ∧
      (s.emit d).faultInfo = s.faultInfo ∧
      (s.emit d).fbDirty = s.fbDirty ∧
      (s.emit d).draws = s.draws := by
  refine ⟨rfl, rfl, rfl, rfl, rfl, rfl, rfl, rfl, rfl, rfl, rfl, rfl, rfl, rfl, rfl, rfl⟩

@[simp] theorem State.countDraw_frame :
    (s.countDraw).v = s.v ∧
      (s.countDraw).i = s.i ∧
      (s.countDraw).pc = s.pc ∧
      (s.countDraw).stack = s.stack ∧
      (s.countDraw).sp = s.sp ∧
      (s.countDraw).delay = s.delay ∧
      (s.countDraw).sound = s.sound ∧
      (s.countDraw).fb = s.fb ∧
      (s.countDraw).mem = s.mem ∧
      (s.countDraw).key = s.key ∧
      (s.countDraw).ir = s.ir ∧
      (s.countDraw).run = s.run ∧
      (s.countDraw).faultCause = s.faultCause ∧
      (s.countDraw).faultInfo = s.faultInfo ∧
      (s.countDraw).fbDirty = s.fbDirty ∧
      (s.countDraw).diags = s.diags := by
  refine ⟨rfl, rfl, rfl, rfl, rfl, rfl, rfl, rfl, rfl, rfl, rfl, rfl, rfl, rfl, rfl, rfl⟩

@[simp] theorem State.advance_frame (k : Word) :
    (s.advance k).v = s.v ∧
      (s.advance k).i = s.i ∧
      (s.advance k).stack = s.stack ∧
      (s.advance k).sp = s.sp ∧
      (s.advance k).delay = s.delay ∧
      (s.advance k).sound = s.sound ∧
      (s.advance k).fb = s.fb ∧
      (s.advance k).mem = s.mem ∧
      (s.advance k).key = s.key ∧
      (s.advance k).ir = s.ir ∧
      (s.advance k).run = s.run ∧
      (s.advance k).faultCause = s.faultCause ∧
      (s.advance k).faultInfo = s.faultInfo ∧
      (s.advance k).fbDirty = s.fbDirty ∧
      (s.advance k).draws = s.draws ∧
      (s.advance k).diags = s.diags := by
  refine ⟨rfl, rfl, rfl, rfl, rfl, rfl, rfl, rfl, rfl, rfl, rfl, rfl, rfl, rfl, rfl, rfl⟩

@[simp] theorem State.stepPc_frame :
    (s.stepPc).v = s.v ∧
      (s.stepPc).i = s.i ∧
      (s.stepPc).stack = s.stack ∧
      (s.stepPc).sp = s.sp ∧
      (s.stepPc).delay = s.delay ∧
      (s.stepPc).sound = s.sound ∧
      (s.stepPc).fb = s.fb ∧
      (s.stepPc).mem = s.mem ∧
      (s.stepPc).key = s.key ∧
      (s.stepPc).ir = s.ir ∧
      (s.stepPc).run = s.run ∧
      (s.stepPc).faultCause = s.faultCause ∧
      (s.stepPc).faultInfo = s.faultInfo ∧
      (s.stepPc).fbDirty = s.fbDirty ∧
      (s.stepPc).draws = s.draws ∧
      (s.stepPc).diags = s.diags := by
  refine ⟨rfl, rfl, rfl, rfl, rfl, rfl, rfl, rfl, rfl, rfl, rfl, rfl, rfl, rfl, rfl, rfl⟩

@[simp] theorem State.skipIf_frame (c : Bool) :
    (s.skipIf c).v = s.v ∧
      (s.skipIf c).i = s.i ∧
      (s.skipIf c).stack = s.stack ∧
      (s.skipIf c).sp = s.sp ∧
      (s.skipIf c).delay = s.delay ∧
      (s.skipIf c).sound = s.sound ∧
      (s.skipIf c).fb = s.fb ∧
      (s.skipIf c).mem = s.mem ∧
      (s.skipIf c).key = s.key ∧
      (s.skipIf c).ir = s.ir ∧
      (s.skipIf c).run = s.run ∧
      (s.skipIf c).faultCause = s.faultCause ∧
      (s.skipIf c).faultInfo = s.faultInfo ∧
      (s.skipIf c).fbDirty = s.fbDirty ∧
      (s.skipIf c).draws = s.draws ∧
      (s.skipIf c).diags = s.diags := by
  refine ⟨rfl, rfl, rfl, rfl, rfl, rfl, rfl, rfl, rfl, rfl, rfl, rfl, rfl, rfl, rfl, rfl⟩

@[simp] theorem State.advanceIndex_frame (x : Reg) :
    (s.advanceIndex x).v = s.v ∧
      (s.advanceIndex x).pc = s.pc ∧
      (s.advanceIndex x).stack = s.stack ∧
      (s.advanceIndex x).sp = s.sp ∧
      (s.advanceIndex x).delay = s.delay ∧
      (s.advanceIndex x).sound = s.sound ∧
      (s.advanceIndex x).fb = s.fb ∧
      (s.advanceIndex x).mem = s.mem ∧
      (s.advanceIndex x).key = s.key ∧
      (s.advanceIndex x).ir = s.ir ∧
      (s.advanceIndex x).run = s.run ∧
      (s.advanceIndex x).faultCause = s.faultCause ∧
      (s.advanceIndex x).faultInfo = s.faultInfo ∧
      (s.advanceIndex x).fbDirty = s.fbDirty ∧
      (s.advanceIndex x).draws = s.draws ∧
      (s.advanceIndex x).diags = s.diags := by
  refine ⟨rfl, rfl, rfl, rfl, rfl, rfl, rfl, rfl, rfl, rfl, rfl, rfl, rfl, rfl, rfl, rfl⟩

@[simp] theorem State.drawRows_frame (x0 y0 : Byte) (bs : List Byte) :
    (s.drawRows x0 y0 bs).i = s.i ∧
      (s.drawRows x0 y0 bs).pc = s.pc ∧
      (s.drawRows x0 y0 bs).stack = s.stack ∧
      (s.drawRows x0 y0 bs).sp = s.sp ∧
      (s.drawRows x0 y0 bs).delay = s.delay ∧
      (s.drawRows x0 y0 bs).sound = s.sound ∧
      (s.drawRows x0 y0 bs).mem = s.mem ∧
      (s.drawRows x0 y0 bs).key = s.key ∧
      (s.drawRows x0 y0 bs).ir = s.ir ∧
      (s.drawRows x0 y0 bs).run = s.run ∧
      (s.drawRows x0 y0 bs).faultCause = s.faultCause ∧
      (s.drawRows x0 y0 bs).faultInfo = s.faultInfo ∧
      (s.drawRows x0 y0 bs).draws = s.draws ∧
      (s.drawRows x0 y0 bs).diags = s.diags := by
  simp [State.drawRows]

@[simp] theorem State.placeWord_frame (w : Word) :
    (s.placeWord w).v = s.v ∧
      (s.placeWord w).i = s.i ∧
      (s.placeWord w).pc = s.pc ∧
      (s.placeWord w).stack = s.stack ∧
      (s.placeWord w).sp = s.sp ∧
      (s.placeWord w).delay = s.delay ∧
      (s.placeWord w).sound = s.sound ∧
      (s.placeWord w).fb = s.fb ∧
      (s.placeWord w).key = s.key ∧
      (s.placeWord w).ir = s.ir ∧
      (s.placeWord w).run = s.run ∧
      (s.placeWord w).faultCause = s.faultCause ∧
      (s.placeWord w).faultInfo = s.faultInfo ∧
      (s.placeWord w).fbDirty = s.fbDirty ∧
      (s.placeWord w).draws = s.draws ∧
      (s.placeWord w).diags = s.diags := by
  refine ⟨rfl, rfl, rfl, rfl, rfl, rfl, rfl, rfl, rfl, rfl, rfl, rfl, rfl, rfl, rfl, rfl⟩

@[simp] theorem State.readyToFetch_frame :
    (s.readyToFetch).v = s.v ∧
      (s.readyToFetch).i = s.i ∧
      (s.readyToFetch).stack = s.stack ∧
      (s.readyToFetch).sp = s.sp ∧
      (s.readyToFetch).delay = s.delay ∧
      (s.readyToFetch).sound = s.sound ∧
      (s.readyToFetch).fb = s.fb ∧
      (s.readyToFetch).mem = s.mem ∧
      (s.readyToFetch).key = s.key ∧
      (s.readyToFetch).ir = s.ir ∧
      (s.readyToFetch).faultCause = s.faultCause ∧
      (s.readyToFetch).faultInfo = s.faultInfo ∧
      (s.readyToFetch).fbDirty = s.fbDirty ∧
      (s.readyToFetch).draws = s.draws ∧
      (s.readyToFetch).diags = s.diags := by
  refine ⟨rfl, rfl, rfl, rfl, rfl, rfl, rfl, rfl, rfl, rfl, rfl, rfl, rfl, rfl, rfl⟩

/-! ### A register after a write that does not touch the register file -/

@[simp] theorem State.setI_reg (x : Word) (q : Reg) : (s.setI x).reg q = s.reg q := rfl
@[simp] theorem State.setPc_reg (x : Word) (q : Reg) : (s.setPc x).reg q = s.reg q := rfl
@[simp] theorem State.setStack_reg (x : Vector Word 16) (q : Reg) : (s.setStack x).reg q = s.reg q := rfl
@[simp] theorem State.setSp_reg (x : Fin 17) (q : Reg) : (s.setSp x).reg q = s.reg q := rfl
@[simp] theorem State.setDelay_reg (x : Byte) (q : Reg) : (s.setDelay x).reg q = s.reg q := rfl
@[simp] theorem State.setSound_reg (x : Byte) (q : Reg) : (s.setSound x).reg q = s.reg q := rfl
@[simp] theorem State.setFb_reg (x : Framebuffer) (q : Reg) : (s.setFb x).reg q = s.reg q := rfl
@[simp] theorem State.setMem_reg (x : Memory) (q : Reg) : (s.setMem x).reg q = s.reg q := rfl
@[simp] theorem State.setKey_reg (x : Option Byte) (q : Reg) : (s.setKey x).reg q = s.reg q := rfl
@[simp] theorem State.setIr_reg (x : Word) (q : Reg) : (s.setIr x).reg q = s.reg q := rfl
@[simp] theorem State.setRun_reg (x : RunState) (q : Reg) : (s.setRun x).reg q = s.reg q := rfl
@[simp] theorem State.setFaultCause_reg (x : FaultCause) (q : Reg) : (s.setFaultCause x).reg q = s.reg q := rfl
@[simp] theorem State.setFaultInfo_reg (x : FaultInfo) (q : Reg) : (s.setFaultInfo x).reg q = s.reg q := rfl
@[simp] theorem State.setFbDirty_reg (x : Bool) (q : Reg) : (s.setFbDirty x).reg q = s.reg q := rfl
@[simp] theorem State.setDraws_reg (x : Nat) (q : Reg) : (s.setDraws x).reg q = s.reg q := rfl
@[simp] theorem State.setDiags_reg (x : List Diag) (q : Reg) : (s.setDiags x).reg q = s.reg q := rfl
@[simp] theorem State.raise_reg (c : FaultCause) (n : FaultInfo) (q : Reg) : (s.raise c n).reg q = s.reg q := rfl
@[simp] theorem State.raiseData_reg (q : Reg) : (s.raiseData).reg q = s.reg q := rfl
@[simp] theorem State.raiseFetch_reg (q : Reg) : (s.raiseFetch).reg q = s.reg q := rfl
@[simp] theorem State.emit_reg (d : Diag) (q : Reg) : (s.emit d).reg q = s.reg q := rfl
@[simp] theorem State.countDraw_reg (q : Reg) : (s.countDraw).reg q = s.reg q := rfl
@[simp] theorem State.advance_reg (k : Word) (q : Reg) : (s.advance k).reg q = s.reg q := rfl
@[simp] theorem State.stepPc_reg (q : Reg) : (s.stepPc).reg q = s.reg q := rfl
@[simp] theorem State.skipIf_reg (c : Bool) (q : Reg) : (s.skipIf c).reg q = s.reg q := rfl
@[simp] theorem State.advanceIndex_reg (x : Reg) (q : Reg) : (s.advanceIndex x).reg q = s.reg q := rfl
@[simp] theorem State.placeWord_reg (w : Word) (q : Reg) : (s.placeWord w).reg q = s.reg q := rfl
@[simp] theorem State.readyToFetch_reg (q : Reg) : (s.readyToFetch).reg q = s.reg q := rfl

/-! ### What the shared operations write -/

theorem State.setReg_reg (r q : Reg) (b : Byte) : (s.setReg r b).reg q = if r = q then b else s.reg q := by
  simp [State.reg, State.setReg, Vector.getElem_set, Fin.ext_iff]

@[simp] theorem State.setReg_reg_self (r : Reg) (b : Byte) : (s.setReg r b).reg r = b := by
  simp [State.setReg_reg]

@[simp] theorem State.setReg_reg_of_ne {r q : Reg} (h : r ≠ q) (b : Byte) : (s.setReg r b).reg q = s.reg q := by
  simp [State.setReg_reg, h]

/-- The flag stays in `VF` unless the result goes there too (R100). -/
theorem State.writeFlagThenResult_reg (x q : Reg) (c : Bool) (b : Byte) :
    (s.writeFlagThenResult x c b).reg q = if x = q then b else if VF = q then flagByte c else s.reg q := by
  simp [State.writeFlagThenResult, State.setReg_reg]

theorem State.loadRegs_reg (bs : List Byte) (q : Reg) : (s.loadRegs bs).reg q = (bs[q.val]?).getD (s.reg q) := by
  simp [State.loadRegs, State.reg]

/-- A register depends on the register file alone. -/
theorem State.reg_congr {t : State} (h : t.v = s.v) (q : Reg) : t.reg q = s.reg q := by
  simp [State.reg, h]

@[simp] theorem State.raise_run (c : FaultCause) (n : FaultInfo) : (s.raise c n).run = .faulted := rfl
@[simp] theorem State.raise_faultCause (c : FaultCause) (n : FaultInfo) : (s.raise c n).faultCause = c := rfl
@[simp] theorem State.raise_faultInfo (c : FaultCause) (n : FaultInfo) : (s.raise c n).faultInfo = n := rfl
@[simp] theorem State.emit_diags (d : Diag) : (s.emit d).diags = s.diags ++ [d] := rfl
@[simp] theorem State.countDraw_draws : s.countDraw.draws = s.draws + 1 := rfl
@[simp] theorem State.advance_pc (k : Word) : (s.advance k).pc = s.pc + k := rfl
@[simp] theorem State.stepPc_pc : s.stepPc.pc = s.pc + 2 := rfl
@[simp] theorem State.skipIf_pc (c : Bool) : (s.skipIf c).pc = s.pc + if c then 4 else 2 := rfl
@[simp] theorem State.advanceIndex_i (x : Reg) : (s.advanceIndex x).i = s.i + .ofNat 16 (regCount x) := rfl

/-- All that a push does: the address of the call in the first free slot, or nothing when there is none. -/
theorem State.push_eq_some {t : State} : s.push = some t ↔ ∃ h : s.sp.val < 16,
    t = (s.setStack (s.stack.set s.sp.val s.pc h)).setSp ⟨s.sp.val + 1, by omega⟩ := by
  unfold State.push
  split
  · next h => exact ⟨fun e => ⟨h, (Option.some.inj e).symm⟩, fun ⟨_, e⟩ => e ▸ rfl⟩
  · next h => exact ⟨fun e => (nomatch e), fun ⟨h', _⟩ => absurd h' h⟩

theorem State.push_eq_none : s.push = none ↔ s.sp = 16 := by
  have h16 : (16 : Fin 17).val = 16 := rfl
  rw [Fin.ext_iff]
  unfold State.push
  split <;> simp only [reduceCtorEq, h16, true_iff, false_iff] <;> omega

/-- All that a pop does: the content of the last occupied slot, or nothing when there is none. -/
theorem State.pop_eq_some {a : Word} {t : State} : s.pop = some (a, t) ↔ ∃ h : 0 < s.sp.val,
    a = s.stack[s.sp.val - 1]'(by omega) ∧ t = s.setSp ⟨s.sp.val - 1, by omega⟩ := by
  unfold State.pop
  split
  · next h => exact ⟨fun e => by cases e; exact ⟨h, rfl, rfl⟩, fun ⟨_, e, e'⟩ => by rw [e, e']⟩
  · next h => exact ⟨fun e => (nomatch e), fun ⟨h', _⟩ => absurd h' h⟩

theorem State.pop_eq_none : s.pop = none ↔ s.sp = 0 := by
  rw [Fin.ext_iff]
  unfold State.pop
  split <;> simp only [reduceCtorEq, Fin.val_zero, true_iff, false_iff] <;> omega

/-- All that a fetch does (R81). -/
theorem State.fetch_eq_some {w : Word} : s.fetch = some w ↔ s.pc.toNat + 1 ≤ 4095 ∧
    wordOfBytes (s.mem.read s.pc.toNat) (s.mem.read (s.pc.toNat + 1)) = w := by
  unfold State.fetch
  split <;> simp_all [inSpace] <;> omega

theorem State.fetch_eq_none : s.fetch = none ↔ 4095 < s.pc.toNat + 1 := by
  unfold State.fetch
  split <;> simp_all [inSpace] <;> omega

/-- The access check (R43). -/
@[simp] theorem inSpace_iff (base len : Nat) : inSpace base len = true ↔ len = 0 ∨ base + len ≤ 4096 := by
  simp [inSpace]

theorem State.storeBlock_eq_some {base : Nat} {bs : List Byte} {t : State} : s.storeBlock base bs = some t ↔
    inSpace base bs.length = true ∧ t = s.setMem (s.mem.writeBytes base bs) := by
  unfold State.storeBlock
  split <;> simp_all only [Option.some.injEq, true_and, false_and, reduceCtorEq]
  exact eq_comm

theorem State.loadBlock_eq_some {base n : Nat} {bs : List Byte} : s.loadBlock base n = some bs ↔
    inSpace base n = true ∧ bs = s.mem.readBytes base n := by
  unfold State.loadBlock
  split <;> simp_all only [Option.some.injEq, true_and, false_and, reduceCtorEq]
  exact eq_comm

/-! ### Values of the operand forms, the flags and the timers -/

@[simp] theorem zextAddr_toNat (nnn : Addr) : (zextAddr nnn).toNat = nnn.toNat := by
  simp [zextAddr]; omega

@[simp] theorem zextByte_toNat (b : Byte) : (zextByte b).toNat = b.toNat := by
  simp [zextByte]; omega

@[simp] theorem faultAddress_toNat (a : Word) : (faultAddress a).toNat = max a.toNat 4096 := by
  simp [faultAddress]; omega

/-- The flag byte is exactly 0 or 1 (R12). -/
theorem flagByte_eq_zero_or_one (c : Bool) : flagByte c = 0 ∨ flagByte c = 1 := by
  cases c <;> decide

theorem tickDown_toNat (b : Byte) : (tickDown b).toNat = b.toNat - 1 := by
  unfold tickDown
  split
  · next h => simp [h]
  · next h =>
    have : b.toNat ≠ 0 := fun e => h (BitVec.eq_of_toNat_eq (by simpa using e))
    bv_omega

@[simp] theorem State.regsUpTo_length (x : Reg) : (s.regsUpTo x).length = x.val + 1 := by
  simp [State.regsUpTo, regCount]

theorem keyIs_iff (key : Option Byte) (b : Byte) : keyIs key b = true ↔ key = some b := by
  cases key <;> simp [keyIs]

end Sys2Proof.Machine
end

