-- ==== Sys2Proof/Laws/Display.lean ====
section
/-! SUPPORT. The laws of the framebuffer and of the sprite draw (spec/44_display.md R130 to R135). -/

namespace Sys2Proof.Machine

@[simp] theorem litAt_clearFb (p : Pixel) : litAt clearFb p = false := by
  simp [litAt, clearFb]

/-- Two framebuffers whose cells agree are equal. -/
theorem fb_ext {f g : Framebuffer} (h : ∀ p, litAt f p = litAt g p) : f = g := by
  apply Vector.ext
  intro px hx
  apply Vector.ext
  intro py hy
  exact h (⟨px, hx⟩, ⟨py, hy⟩)

/-- A toggle changes its own cell and no other. -/
theorem litAt_flipAt (fb : Framebuffer) (p q : Pixel) :
    litAt (flipAt fb p) q = if p = q then !litAt fb q else litAt fb q := by
  obtain ⟨⟨px, hpx⟩, ⟨py, hpy⟩⟩ := p
  obtain ⟨⟨qx, hqx⟩, ⟨qy, hqy⟩⟩ := q
  simp only [litAt, flipAt, Fin.getElem_fin, Vector.getElem_set, Prod.mk.injEq, Fin.mk.injEq]
  by_cases hx : px = qx
  · subst hx
    by_cases hy : py = qy <;> simp [hy]
  · simp [hx]

/-- All that a draw does to the pixels when no cell is hit twice: the cells hit are toggled, and the collision says
whether one of them was lit (R135). -/
theorem foldl_blitPixel (ps : List Pixel) (hn : ps.Nodup) (acc : Framebuffer × Bool) :
    (∀ q, litAt (ps.foldl blitPixel acc).1 q = (litAt acc.1 q ^^ decide (q ∈ ps))) ∧
      (ps.foldl blitPixel acc).2 = (acc.2 || ps.any (litAt acc.1)) := by
  induction ps generalizing acc with
  | nil => simp
  | cons p ps ih =>
    obtain ⟨hp, hn⟩ := List.nodup_cons.1 hn
    obtain ⟨h1, h2⟩ := ih hn (blitPixel acc p)
    refine ⟨fun q => ?_, ?_⟩
    · rw [List.foldl_cons, h1 q]
      simp only [blitPixel, litAt_flipAt, List.mem_cons]
      by_cases hq : p = q
      · subst hq; simp [hp]
      · simp [hq, Ne.symm hq]
    · rw [List.foldl_cons, h2]
      have : ps.any (litAt (blitPixel acc p).1) = ps.any (litAt acc.1) := by
        rw [Bool.eq_iff_iff, List.any_eq_true, List.any_eq_true]
        refine exists_congr fun q => and_congr_right fun hq => ?_
        have : p ≠ q := fun e => hp (e ▸ hq)
        simp [blitPixel, litAt_flipAt, this]
      rw [this]
      simp [blitPixel, Bool.or_assoc]

theorem blit_spec {fb : Framebuffer} {ps : List Pixel} (hn : ps.Nodup) :
    (∀ q, litAt (blit fb ps).1 q = (litAt fb q ^^ decide (q ∈ ps))) ∧ (blit fb ps).2 = ps.any (litAt fb) := by
  simpa [blit] using foldl_blitPixel ps hn (fb, false)

@[simp] theorem mem_rowColumns (b : Byte) (c : Nat) : c ∈ rowColumns b ↔ c < 8 ∧ b.getLsbD (7 - c) = true := by
  simp [rowColumns]

/-- The cells a sprite's set bits land on (R132 to R134). -/
theorem mem_spritePixels (x0 y0 : Byte) (bs : List Byte) : ∀ (r : Nat) (q : Pixel), q ∈ spritePixels x0 y0 r bs ↔
    ∃ (k : Nat) (b : Byte) (c : Nat), bs[k]? = some b ∧ c < 8 ∧ b.getLsbD (7 - c) = true ∧
      q = (wrapColumn x0 c, wrapRow y0 (r + k)) := by
  induction bs with
  | nil => simp [spritePixels]
  | cons b bs ih =>
    intro r q
    rw [spritePixels, List.mem_append, ih]
    constructor
    · rintro (h | ⟨k, b', c, hb, hc, hbit, rfl⟩)
      · simp only [rowPixels, List.mem_map, mem_rowColumns] at h
        obtain ⟨c, ⟨hc, hbit⟩, rfl⟩ := h
        exact ⟨0, b, c, rfl, hc, hbit, rfl⟩
      · exact ⟨k + 1, b', c, hb, hc, hbit, by rw [Nat.add_right_comm, Nat.add_assoc]⟩
    · rintro ⟨k, b', c, hb, hc, hbit, rfl⟩
      cases k with
      | zero =>
        cases hb
        exact .inl (List.mem_map.2 ⟨c, (mem_rowColumns b c).2 ⟨hc, hbit⟩, rfl⟩)
      | succ k => exact .inr ⟨k, b', c, hb, hc, hbit, by rw [Nat.add_right_comm, Nat.add_assoc]⟩

/-- A sprite is 8 columns wide, so no two bits of a row land on one cell (R135). -/
theorem wrapColumn_inj {x0 : Byte} {c c' : Nat} (hc : c < 8) (hc' : c' < 8) (h : wrapColumn x0 c = wrapColumn x0 c') :
    c = c' := by
  have : (x0.toNat + c) % 64 = (x0.toNat + c') % 64 := congrArg Fin.val h
  omega

/-- A sprite has at most 32 rows, so no two of its rows land on one row (R135). -/
theorem wrapRow_inj {y0 : Byte} {r r' : Nat} (hr : r' < r + 32) (hr' : r < r' + 32) (h : wrapRow y0 r = wrapRow y0 r') :
    r = r' := by
  have : (y0.toNat + r) % 32 = (y0.toNat + r') % 32 := congrArg Fin.val h
  omega

theorem rowPixels_nodup (x0 y0 : Byte) (r : Nat) (b : Byte) : (rowPixels x0 y0 r b).Nodup := by
  refine List.Nodup.map_on (fun c hc c' hc' h => ?_) (List.nodup_range.filter _)
  rw [mem_rowColumns] at hc hc'
  exact wrapColumn_inj hc.1 hc'.1 (Prod.mk.inj h).1

/-- No two bits of a sprite of at most 32 rows land on the same cell, even with wrap (R135). -/
theorem spritePixels_nodup (x0 y0 : Byte) : ∀ (bs : List Byte) (r : Nat), bs.length ≤ 32 →
    (spritePixels x0 y0 r bs).Nodup
  | [], _, _ => List.nodup_nil
  | b :: bs, r, h => by
    simp only [List.length_cons] at h
    rw [spritePixels]
    refine (rowPixels_nodup x0 y0 r b).append (spritePixels_nodup x0 y0 bs (r + 1) (by omega)) ?_
    intro q hq hq'
    obtain ⟨c, -, rfl⟩ := List.mem_map.1 hq
    obtain ⟨k, b', c', hb, -, -, he⟩ := (mem_spritePixels x0 y0 bs (r + 1) _).1 hq'
    have hk : k < bs.length := (List.getElem?_eq_some_iff.1 hb).1
    have := wrapRow_inj (by omega) (by omega) (Prod.mk.inj he).2
    omega

end Sys2Proof.Machine
end

