-- ==== Sys2Proof/Laws/Encoding.lean ====
section
/-! SUPPORT. The fields of an encoded word, and a word from its fields (spec/30_encoding.md R61, R62). -/

namespace Sys2Proof

@[simp] theorem nibble_toFin (r : Fin 16) : (nibble r).toFin = r := rfl

@[simp] theorem nibble_of_toFin (b : BitVec 4) : nibble b.toFin = b := rfl

theorem nibble_xField (w : Word) : nibble (xField w) = w.extractLsb' 8 4 := rfl

theorem nibble_yField (w : Word) : nibble (yField w) = w.extractLsb' 4 4 := rfl

/-! ### The bits of each format (R62) and of a word of two bytes (R44) -/

theorem getLsbD_encodeNNN (op : BitVec 4) (nnn : Addr) (k : Nat) :
    (encodeNNN op nnn).getLsbD k = if k < 12 then nnn.getLsbD k else op.getLsbD (k - 12) :=
  BitVec.getLsbD_append

theorem getLsbD_encodeXNN (op : BitVec 4) (x : Reg) (nn : Byte) (k : Nat) :
    (encodeXNN op x nn).getLsbD k =
      if k < 8 then nn.getLsbD k else if k - 8 < 4 then (nibble x).getLsbD (k - 8) else op.getLsbD (k - 8 - 4) :=
  (BitVec.getLsbD_append (x := op ++ nibble x)).trans (by rw [BitVec.getLsbD_append])

theorem getLsbD_encodeXYN (op : BitVec 4) (x y : Reg) (n : BitVec 4) (k : Nat) :
    (encodeXYN op x y n).getLsbD k =
      if k < 4 then n.getLsbD k else if k - 4 < 4 then (nibble y).getLsbD (k - 4)
      else if k - 4 - 4 < 4 then (nibble x).getLsbD (k - 4 - 4) else op.getLsbD (k - 4 - 4 - 4) :=
  (BitVec.getLsbD_append (x := op ++ nibble x ++ nibble y)).trans
    (by rw [BitVec.getLsbD_append (x := op ++ nibble x), BitVec.getLsbD_append])

theorem getLsbD_wordOfBytes (hi lo : Byte) (k : Nat) :
    (wordOfBytes hi lo).getLsbD k = if k < 8 then lo.getLsbD k else hi.getLsbD (k - 8) :=
  BitVec.getLsbD_append

/-- Two vectors of one width whose bits agree are equal. -/
theorem eq_of_bits {n : Nat} {a b : BitVec n} (h : ∀ k, k < n → a.getLsbD k = b.getLsbD k) : a = b :=
  BitVec.eq_of_getLsbD_eq h

/-! ### The fields of an encoded word -/

@[simp] theorem opField_encodeNNN (op : BitVec 4) (nnn : Addr) : opField (encodeNNN op nnn) = op := by
  refine eq_of_bits fun k hk => ?_
  simp [opField, getLsbD_encodeNNN, hk]

@[simp] theorem nnnField_encodeNNN (op : BitVec 4) (nnn : Addr) : nnnField (encodeNNN op nnn) = nnn := by
  refine eq_of_bits fun k hk => ?_
  simp [nnnField, getLsbD_encodeNNN, hk]

@[simp] theorem opField_encodeXNN (op : BitVec 4) (x : Reg) (nn : Byte) : opField (encodeXNN op x nn) = op := by
  refine eq_of_bits fun k hk => ?_
  have h : 12 + k - 8 - 4 = k := by omega
  rw [opField, BitVec.getLsbD_extractLsb', getLsbD_encodeXNN, if_neg (by omega), if_neg (by omega), h]
  simp [hk]

@[simp] theorem xField_encodeXNN (op : BitVec 4) (x : Reg) (nn : Byte) : xField (encodeXNN op x nn) = x := by
  have : (encodeXNN op x nn).extractLsb' 8 4 = nibble x := eq_of_bits fun k hk => by
    simp [getLsbD_encodeXNN, hk]
  exact (congrArg BitVec.toFin this).trans (nibble_toFin x)

@[simp] theorem nnField_encodeXNN (op : BitVec 4) (x : Reg) (nn : Byte) : nnField (encodeXNN op x nn) = nn := by
  refine eq_of_bits fun k hk => ?_
  simp [nnField, getLsbD_encodeXNN, hk]

@[simp] theorem opField_encodeXYN (op : BitVec 4) (x y : Reg) (n : BitVec 4) : opField (encodeXYN op x y n) = op := by
  refine eq_of_bits fun k hk => ?_
  have h : 12 + k - 4 - 4 - 4 = k := by omega
  rw [opField, BitVec.getLsbD_extractLsb', getLsbD_encodeXYN, if_neg (by omega), if_neg (by omega),
    if_neg (by omega), h]
  simp [hk]

@[simp] theorem xField_encodeXYN (op : BitVec 4) (x y : Reg) (n : BitVec 4) : xField (encodeXYN op x y n) = x := by
  have : (encodeXYN op x y n).extractLsb' 8 4 = nibble x := eq_of_bits fun k hk => by
    have h : 8 + k - 4 - 4 = k := by omega
    rw [BitVec.getLsbD_extractLsb', getLsbD_encodeXYN, if_neg (by omega), if_neg (by omega), if_pos (by omega), h]
    simp [hk]
  exact (congrArg BitVec.toFin this).trans (nibble_toFin x)

@[simp] theorem yField_encodeXYN (op : BitVec 4) (x y : Reg) (n : BitVec 4) : yField (encodeXYN op x y n) = y := by
  have : (encodeXYN op x y n).extractLsb' 4 4 = nibble y := eq_of_bits fun k hk => by
    simp [getLsbD_encodeXYN, hk]
  exact (congrArg BitVec.toFin this).trans (nibble_toFin y)

@[simp] theorem subField_encodeXYN (op : BitVec 4) (x y : Reg) (n : BitVec 4) : subField (encodeXYN op x y n) = n := by
  refine eq_of_bits fun k hk => ?_
  simp [subField, getLsbD_encodeXYN, hk]

/-! ### A word is its fields -/

theorem encodeNNN_fields (w : Word) : encodeNNN (opField w) (nnnField w) = w := by
  refine eq_of_bits fun k hk => ?_
  rw [getLsbD_encodeNNN]
  split
  · next h => simp [nnnField, h]
  · next h =>
    have h1 : k - 12 < 4 := by omega
    have h2 : 12 + (k - 12) = k := by omega
    simp [opField, h1, h2]

theorem encodeXNN_fields (w : Word) : encodeXNN (opField w) (xField w) (nnField w) = w := by
  refine eq_of_bits fun k hk => ?_
  rw [getLsbD_encodeXNN]
  split
  · next h => simp [nnField, h]
  · split
    · next h h' =>
      have h2 : 8 + (k - 8) = k := by omega
      simp [nibble_xField, h', h2]
    · next h h' =>
      have h1 : k - 8 - 4 < 4 := by omega
      have h2 : 12 + (k - 8 - 4) = k := by omega
      simp [opField, h1, h2]

theorem encodeXYN_fields (w : Word) : encodeXYN (opField w) (xField w) (yField w) (subField w) = w := by
  refine eq_of_bits fun k hk => ?_
  rw [getLsbD_encodeXYN]
  split
  · next h => simp [subField, h]
  · split
    · next h h' =>
      have h2 : 4 + (k - 4) = k := by omega
      simp [nibble_yField, h', h2]
    · split
      · next h h' h'' =>
        have h2 : 8 + (k - 4 - 4) = k := by omega
        simp [nibble_xField, h'', h2]
      · next h h' h'' =>
        have h1 : k - 4 - 4 - 4 < 4 := by omega
        have h2 : 12 + (k - 4 - 4 - 4) = k := by omega
        simp [opField, h1, h2]

/-! ### The bytes of a word (R44) -/

@[simp] theorem hiByte_wordOfBytes (hi lo : Byte) : hiByte (wordOfBytes hi lo) = hi := by
  refine eq_of_bits fun k hk => ?_
  simp [hiByte, getLsbD_wordOfBytes, hk]

@[simp] theorem loByte_wordOfBytes (hi lo : Byte) : loByte (wordOfBytes hi lo) = lo := by
  refine eq_of_bits fun k hk => ?_
  simp [loByte, getLsbD_wordOfBytes, hk]

@[simp] theorem wordOfBytes_bytes (w : Word) : wordOfBytes (hiByte w) (loByte w) = w := by
  refine eq_of_bits fun k hk => ?_
  rw [getLsbD_wordOfBytes]
  split
  · next h => simp [loByte, h]
  · next h =>
    have h1 : k - 8 < 8 := by omega
    have h2 : 8 + (k - 8) = k := by omega
    simp [hiByte, h1, h2]

/-! ### What a row of the opcode table keeps of a word (R65) -/

theorem and_F000 (w : Word) : w &&& 0xF000 = encodeNNN (opField w) 0 := by
  refine eq_of_bits fun k hk => ?_
  have : (0xF000 : Word).getLsbD k = decide (12 ≤ k) := by interval_cases k <;> rfl
  rw [BitVec.getLsbD_and, this, getLsbD_encodeNNN]
  split
  · next h => simp; omega
  · next h =>
    have h1 : k - 12 < 4 := by omega
    have h2 : 12 + (k - 12) = k := by omega
    simp [opField, h1, h2]; omega

theorem and_F00F (w : Word) : w &&& 0xF00F = encodeXYN (opField w) 0 0 (subField w) := by
  refine eq_of_bits fun k hk => ?_
  have : (0xF00F : Word).getLsbD k = (decide (k < 4) || decide (12 ≤ k)) := by interval_cases k <;> rfl
  rw [BitVec.getLsbD_and, this, getLsbD_encodeXYN]
  split
  · next h => simp [subField, h]
  · next h =>
    by_cases h' : 12 ≤ k
    · have h1 : ¬ k - 4 < 4 := by omega
      have h2 : ¬ k - 4 - 4 < 4 := by omega
      have h3 : k - 4 - 4 - 4 < 4 := by omega
      have h4 : 12 + (k - 4 - 4 - 4) = k := by omega
      simp [opField, h, h', h1, h2, h3, h4]
    · have h2 : k - 4 - 4 < 4 := by omega
      simp [nibble, h, h', h2]

theorem and_F0FF (w : Word) : w &&& 0xF0FF = encodeXNN (opField w) 0 (nnField w) := by
  refine eq_of_bits fun k hk => ?_
  have : (0xF0FF : Word).getLsbD k = (decide (k < 8) || decide (12 ≤ k)) := by interval_cases k <;> rfl
  rw [BitVec.getLsbD_and, this, getLsbD_encodeXNN]
  split
  · next h => simp [nnField, h]
  · next h =>
    by_cases h' : 12 ≤ k
    · have h1 : ¬ k - 8 < 4 := by omega
      have h3 : k - 8 - 4 < 4 := by omega
      have h4 : 12 + (k - 8 - 4) = k := by omega
      simp [opField, h, h', h1, h3, h4]
    · have h2 : k - 8 < 4 := by omega
      simp [nibble, h, h', h2]

theorem and_FFFF (w : Word) : w &&& 0xFFFF = w := BitVec.and_allOnes (x := w)

end Sys2Proof
end

