-- ==== Sys2Proof/Laws/Memory.lean ====
section
/-! SUPPORT. The laws of memory: a read after a write, the canonical form, and blocks of bytes
(spec/20_memory.md R43, R46, R48). -/

namespace Sys2Proof.Machine

/-! ### The canonical form -/

theorem Memory.wfFrom_cons (lo a : Nat) (b : Byte) (rest : Memory) :
    Memory.wfFrom lo ((a, b) :: rest) = true ↔
      lo ≤ a ∧ a < 4096 ∧ b ≠ Memory.resetByte a ∧ Memory.wfFrom (a + 1) rest = true := by
  simp [Memory.wfFrom, and_assoc]

theorem Memory.wfFrom_mono {lo hi : Nat} (h : lo ≤ hi) :
    ∀ {m : Memory}, Memory.wfFrom hi m = true → Memory.wfFrom lo m = true
  | [], _ => rfl
  | (a, b) :: rest, hm => by
    rw [Memory.wfFrom_cons] at hm ⊢
    exact ⟨h.trans hm.1, hm.2⟩

/-- The empty list is in canonical form: it is the memory of a reset (R180). -/
@[simp] theorem Memory.wf_nil : Memory.wf [] = true := rfl

/-- Below the first listed cell every address reads as its reset byte. -/
theorem Memory.read_below {lo a : Nat} (ha : a < lo) :
    ∀ {m : Memory}, Memory.wfFrom lo m = true → Memory.read m a = Memory.resetByte a
  | [], _ => rfl
  | (k, b) :: rest, hm => by
    rw [Memory.wfFrom_cons] at hm
    have hk : a ≠ k := by omega
    rw [Memory.read, if_neg hk]
    exact Memory.read_below (by omega) hm.2.2.2

/-- Addresses from 4096 on are never listed. -/
theorem Memory.read_above {lo a : Nat} (ha : 4096 ≤ a) :
    ∀ {m : Memory}, Memory.wfFrom lo m = true → Memory.read m a = Memory.resetByte a
  | [], _ => rfl
  | (k, b) :: rest, hm => by
    rw [Memory.wfFrom_cons] at hm
    have hk : a ≠ k := by omega
    rw [Memory.read, if_neg hk]
    exact Memory.read_above ha hm.2.2.2

theorem Memory.wfFrom_putFront {lo a : Nat} {b : Byte} {rest : Memory} (hlo : lo ≤ a) (ha : a < 4096)
    (hr : Memory.wfFrom (a + 1) rest = true) : Memory.wfFrom lo (Memory.putFront a b rest) = true := by
  unfold Memory.putFront
  split
  · exact Memory.wfFrom_mono (by omega) hr
  · next hb => exact (Memory.wfFrom_cons _ _ _ _).2 ⟨hlo, ha, hb, hr⟩

theorem Memory.wfFrom_write {a : Nat} {b : Byte} (ha : a < 4096) :
    ∀ {lo : Nat} {m : Memory}, lo ≤ a → Memory.wfFrom lo m = true → Memory.wfFrom lo (Memory.write m a b) = true
  | lo, [], hlo, _ => Memory.wfFrom_putFront hlo ha rfl
  | lo, (k, c) :: rest, hlo, hm => by
    rw [Memory.wfFrom_cons] at hm
    unfold Memory.write
    split
    · exact (Memory.wfFrom_cons _ _ _ _).2 ⟨hm.1, hm.2.1, hm.2.2.1, Memory.wfFrom_write ha (by omega) hm.2.2.2⟩
    · split
      · next h => exact Memory.wfFrom_putFront hlo ha (h ▸ hm.2.2.2)
      · exact Memory.wfFrom_putFront hlo ha ((Memory.wfFrom_cons _ _ _ _).2 ⟨by omega, hm.2⟩)

/-- A store inside the address space keeps the canonical form. -/
theorem Memory.wf_write {m : Memory} {a : Nat} {b : Byte} (hm : m.wf = true) (ha : a < 4096) :
    (m.write a b).wf = true := Memory.wfFrom_write ha (Nat.zero_le _) hm

/-- A block of stores inside the address space keeps the canonical form. -/
theorem Memory.wf_writeBytes {m : Memory} (hm : m.wf = true) :
    ∀ {bs : List Byte} {base : Nat}, inSpace base bs.length = true → (m.writeBytes base bs).wf = true
  | [], _, _ => hm
  | b :: bs, base, h => by
    have h' : base + (bs.length + 1) ≤ 4096 := by simpa [inSpace] using h
    exact Memory.wf_write (Memory.wf_writeBytes hm (by simp [inSpace]; omega)) (by omega)

/-- In canonical form, memories that read alike are equal. -/
theorem Memory.eq_of_read_eq_from {lo : Nat} : ∀ {m n : Memory}, Memory.wfFrom lo m = true → Memory.wfFrom lo n = true →
    (∀ a, m.read a = n.read a) → m = n
  | [], [], _, _, _ => rfl
  | [], (k, c) :: rest, _, hn, h => by
    rw [Memory.wfFrom_cons] at hn
    have := h k
    simp only [Memory.read, if_true] at this
    exact absurd this.symm hn.2.2.1
  | (k, c) :: rest, [], hm, _, h => by
    rw [Memory.wfFrom_cons] at hm
    have := h k
    simp only [Memory.read, if_true] at this
    exact absurd this hm.2.2.1
  | (k, c) :: m, (k', c') :: n, hm, hn, h => by
    rw [Memory.wfFrom_cons] at hm hn
    have hk := h k
    have hk' := h k'
    simp only [Memory.read, if_true] at hk hk'
    rcases Nat.lt_trichotomy k k' with hlt | rfl | hgt
    · rw [if_neg (by omega), Memory.read_below (by omega) hn.2.2.2] at hk
      exact absurd hk hm.2.2.1
    · rw [if_pos rfl] at hk
      refine congrArg₂ List.cons (Prod.ext rfl hk) (Memory.eq_of_read_eq_from hm.2.2.2 hn.2.2.2 fun a => ?_)
      have ha := h a
      simp only [Memory.read] at ha
      by_cases hak : a = k
      · subst hak
        rw [Memory.read_below (by omega) hm.2.2.2, Memory.read_below (by omega) hn.2.2.2]
      · rwa [if_neg hak, if_neg hak] at ha
    · rw [if_neg (by omega), Memory.read_below (by omega) hm.2.2.2] at hk'
      exact absurd hk'.symm hn.2.2.1

/-- Equal memories are equal data: the canonical form has one list for each content. -/
theorem Memory.eq_of_read_eq {m n : Memory} (hm : m.wf = true) (hn : n.wf = true) (h : ∀ a, m.read a = n.read a) :
    m = n := Memory.eq_of_read_eq_from hm hn h

/-! ### Read after write -/

theorem Memory.read_putFront_of_ne {a k : Nat} (h : a ≠ k) (b : Byte) (rest : Memory) :
    (Memory.putFront k b rest).read a = rest.read a := by
  unfold Memory.putFront
  split <;> simp [Memory.read, h]

/-- A write leaves every other address alone. -/
theorem Memory.read_write_of_ne {a k : Nat} (h : a ≠ k) (b : Byte) : ∀ m : Memory, (m.write k b).read a = m.read a
  | [] => Memory.read_putFront_of_ne h b []
  | (q, c) :: rest => by
    unfold Memory.write
    split
    · simp only [Memory.read, Memory.read_write_of_ne h b rest]
    · split
      · next hq => rw [Memory.read_putFront_of_ne h, Memory.read, if_neg (hq ▸ h)]
      · rw [Memory.read_putFront_of_ne h]

theorem Memory.read_putFront_self {a : Nat} {b : Byte} {rest : Memory} (h : rest.read a = Memory.resetByte a) :
    (Memory.putFront a b rest).read a = b := by
  unfold Memory.putFront
  split
  · next hb => rw [h, hb]
  · simp [Memory.read]

theorem Memory.read_write_self_from {a : Nat} (b : Byte) :
    ∀ {lo : Nat} {m : Memory}, Memory.wfFrom lo m = true → (m.write a b).read a = b
  | _, [], _ => Memory.read_putFront_self rfl
  | _, (q, c) :: rest, hm => by
    rw [Memory.wfFrom_cons] at hm
    unfold Memory.write
    split
    · rw [Memory.read, if_neg (by omega)]
      exact Memory.read_write_self_from b hm.2.2.2
    · split
      · next hq => exact Memory.read_putFront_self (Memory.read_below (by omega) hm.2.2.2)
      · refine Memory.read_putFront_self ?_
        rw [Memory.read, if_neg (by omega)]
        exact Memory.read_below (by omega) hm.2.2.2

/-- A read after a write to the same address gives the byte written. -/
theorem Memory.read_write_self {m : Memory} (hm : m.wf = true) (a : Nat) (b : Byte) : (m.write a b).read a = b :=
  Memory.read_write_self_from b hm

theorem Memory.read_write {m : Memory} (hm : m.wf = true) (a k : Nat) (b : Byte) :
    (m.write k b).read a = if a = k then b else m.read a := by
  split
  · next h => rw [h, Memory.read_write_self hm]
  · next h => exact Memory.read_write_of_ne h b m

/-! ### Blocks -/

@[simp] theorem Memory.readBytes_length (m : Memory) : ∀ (n base : Nat), (m.readBytes base n).length = n
  | 0, _ => rfl
  | n + 1, base => by simp [Memory.readBytes, Memory.readBytes_length m n]

/-- The `k`-th byte of a block is the one at `base + k`. -/
theorem Memory.readBytes_getElem? (m : Memory) : ∀ (n base k : Nat), k < n →
    (m.readBytes base n)[k]? = some (m.read (base + k))
  | n + 1, base, 0, _ => rfl
  | n + 1, base, k + 1, h => by
    rw [Memory.readBytes, List.getElem?_cons_succ, Memory.readBytes_getElem? m n (base + 1) k (by omega)]
    congr 2
    omega

theorem Memory.readBytes_congr {m m' : Memory} (h : ∀ a, m'.read a = m.read a) :
    ∀ n base, m'.readBytes base n = m.readBytes base n
  | 0, _ => rfl
  | n + 1, base => by rw [Memory.readBytes, Memory.readBytes, h, Memory.readBytes_congr h n]

/-- A block of stores leaves every address outside its range alone. -/
theorem Memory.read_writeBytes_outside (m : Memory) : ∀ (bs : List Byte) (base a : Nat),
    (a < base ∨ base + bs.length ≤ a) → (m.writeBytes base bs).read a = m.read a
  | [], _, _, _ => rfl
  | b :: bs, base, a, h => by
    simp only [List.length_cons] at h
    rw [Memory.writeBytes, Memory.read_write_of_ne (by omega), Memory.read_writeBytes_outside m bs _ _ (by omega)]

/-- A block of stores inside the address space is read back byte by byte. -/
theorem Memory.read_writeBytes_inside {m : Memory} (hm : m.wf = true) : ∀ (bs : List Byte) (base k : Nat)
    (hk : k < bs.length), inSpace base bs.length = true → (m.writeBytes base bs).read (base + k) = bs[k]
  | b :: bs, base, 0, _, h => by
    have h' : base + (bs.length + 1) ≤ 4096 := by simpa [inSpace] using h
    exact Memory.read_write_self (Memory.wf_writeBytes hm (by simp [inSpace]; omega)) base b
  | b :: bs, base, k + 1, hk, h => by
    have h' : base + (bs.length + 1) ≤ 4096 := by simpa [inSpace] using h
    simp only [List.length_cons] at hk
    rw [Memory.writeBytes, Memory.read_write_of_ne (by omega), ← Nat.add_assoc, Nat.add_right_comm,
      Memory.read_writeBytes_inside hm bs (base + 1) k (by omega) (by simp [inSpace]; omega)]
    rfl

/-- What was stored from `base` on is what a load from `base` on gives. -/
theorem Memory.readBytes_writeBytes {m : Memory} (hm : m.wf = true) (bs : List Byte) (base : Nat)
    (h : inSpace base bs.length = true) : (m.writeBytes base bs).readBytes base bs.length = bs := by
  apply List.ext_getElem?
  intro k
  by_cases hk : k < bs.length
  · rw [Memory.readBytes_getElem? _ _ _ _ hk, Memory.read_writeBytes_inside hm bs base k hk h, List.getElem?_eq_getElem hk]
  · rw [List.getElem?_eq_none (by simpa using hk), List.getElem?_eq_none (by simpa using hk)]

/-- The reset content above the font is zero (R41). -/
theorem Memory.resetByte_above {a : Nat} (h : 80 ≤ a) : Memory.resetByte a = 0 := by
  simp [Memory.resetByte, Nat.not_lt.2 h]

/-! ### Memory after a reset, for every `FONT` (R41, R42, R180) -/

theorem State.resetWith_mem_wf (font : Font) : (State.resetWith font).mem.wf = true :=
  Memory.wf_writeBytes (m := []) rfl (by simp [inSpace])

theorem State.resetWith_read_font (font : Font) {a : Nat} (h : a < 80) : (State.resetWith font).mem.read a = font[a] := by
  have := Memory.read_writeBytes_inside (m := []) rfl font.toList 0 a (by simpa using h) (by simp [inSpace])
  rw [Nat.zero_add, Vector.getElem_toList] at this
  exact this

theorem State.resetWith_read_above (font : Font) {a : Nat} (h : 80 ≤ a) : (State.resetWith font).mem.read a = 0 := by
  have := Memory.read_writeBytes_outside [] font.toList 0 a (by simp; omega)
  exact this.trans (Memory.resetByte_above h)

end Sys2Proof.Machine
end

