-- ==== Sys2Proof/Laws/Exec.lean ====
section
/-! SUPPORT. What each arm of `exec` is, what `step` is in each run state, and how the frame predicates of
Sys2Proof/Safety.lean are shown and used. -/

namespace Sys2Proof.Machine

/-! ### The arms of `exec` -/

theorem exec_cls (s : State) : exec .cls s = execCls s := rfl
theorem exec_ret (s : State) : exec .ret s = execRet s := rfl
theorem exec_jp (nnn : Addr) (s : State) : exec (.jp nnn) s = execJp nnn s := rfl
theorem exec_call (nnn : Addr) (s : State) : exec (.call nnn) s = execCall nnn s := rfl
theorem exec_seImm (x : Reg) (nn : Byte) (s : State) : exec (.seImm x nn) s = execSeImm x nn s := rfl
theorem exec_sneImm (x : Reg) (nn : Byte) (s : State) : exec (.sneImm x nn) s = execSneImm x nn s := rfl
theorem exec_seReg (x : Reg) (y : Reg) (s : State) : exec (.seReg x y) s = execSeReg x y s := rfl
theorem exec_ldImm (x : Reg) (nn : Byte) (s : State) : exec (.ldImm x nn) s = execLdImm x nn s := rfl
theorem exec_addImm (x : Reg) (nn : Byte) (s : State) : exec (.addImm x nn) s = execAddImm x nn s := rfl
theorem exec_ldReg (x : Reg) (y : Reg) (s : State) : exec (.ldReg x y) s = execLdReg x y s := rfl
theorem exec_orReg (x : Reg) (y : Reg) (s : State) : exec (.orReg x y) s = execOrReg x y s := rfl
theorem exec_andReg (x : Reg) (y : Reg) (s : State) : exec (.andReg x y) s = execAndReg x y s := rfl
theorem exec_xorReg (x : Reg) (y : Reg) (s : State) : exec (.xorReg x y) s = execXorReg x y s := rfl
theorem exec_addReg (x : Reg) (y : Reg) (s : State) : exec (.addReg x y) s = execAddReg x y s := rfl
theorem exec_sub (x : Reg) (y : Reg) (s : State) : exec (.sub x y) s = execSub x y s := rfl
theorem exec_shr (x : Reg) (y : Reg) (s : State) : exec (.shr x y) s = execShr x y s := rfl
theorem exec_subn (x : Reg) (y : Reg) (s : State) : exec (.subn x y) s = execSubn x y s := rfl
theorem exec_shl (x : Reg) (y : Reg) (s : State) : exec (.shl x y) s = execShl x y s := rfl
theorem exec_sneReg (x : Reg) (y : Reg) (s : State) : exec (.sneReg x y) s = execSneReg x y s := rfl
theorem exec_ldI (nnn : Addr) (s : State) : exec (.ldI nnn) s = execLdI nnn s := rfl
theorem exec_jpV0 (nnn : Addr) (s : State) : exec (.jpV0 nnn) s = execJpV0 nnn s := rfl
theorem exec_rnd (x : Reg) (nn : Byte) (s : State) : exec (.rnd x nn) s = execRnd x nn s := rfl
theorem exec_drw (x : Reg) (y : Reg) (n : Height) (s : State) : exec (.drw x y n) s = execDrw x y n s := rfl
theorem exec_skp (x : Reg) (s : State) : exec (.skp x) s = execSkp x s := rfl
theorem exec_sknp (x : Reg) (s : State) : exec (.sknp x) s = execSknp x s := rfl
theorem exec_ldVxDt (x : Reg) (s : State) : exec (.ldVxDt x) s = execLdVxDt x s := rfl
theorem exec_ldVxK (x : Reg) (s : State) : exec (.ldVxK x) s = execLdVxK x s := rfl
theorem exec_ldDtVx (x : Reg) (s : State) : exec (.ldDtVx x) s = execLdDtVx x s := rfl
theorem exec_ldStVx (x : Reg) (s : State) : exec (.ldStVx x) s = execLdStVx x s := rfl
theorem exec_addI (x : Reg) (s : State) : exec (.addI x) s = execAddI x s := rfl
theorem exec_ldF (x : Reg) (s : State) : exec (.ldF x) s = execLdF x s := rfl
theorem exec_ldB (x : Reg) (s : State) : exec (.ldB x) s = execLdB x s := rfl
theorem exec_stRegs (x : Reg) (s : State) : exec (.stRegs x) s = execStRegs x s := rfl
theorem exec_ldRegs (x : Reg) (s : State) : exec (.ldRegs x) s = execLdRegs x s := rfl

/-! ### `step` in each run state (R80) -/

theorem step_faulted {s : State} (h : s.run = .faulted) : step s = .next s := by
  simp [step, h]

theorem step_awaitKey {s : State} (h : s.run = .awaitKey) : step s = .next (waitForKey (xField s.ir) s) := by
  simp [step, h, resumeAwaitKey]

theorem step_running {s : State} (h : s.run = .running) : step s =
    match s.fetch with
    | none => .next s.raiseFetch
    | some w => match decode w with
      | .ok i => exec i (s.setIr w)
      | .error _ => execUndefined (s.setIr w) := by
  unfold step
  rw [h] <;> rfl

/-! ### Frames -/

theorem SameExcept.refl (fs : List Field) (s : State) : SameExcept fs s s := by
  intro f _
  cases f <;> simp [SameIn]

theorem SameExcept.trans {fs : List Field} {s t u : State} (h : SameExcept fs s t) (h' : SameExcept fs t u) :
    SameExcept fs s u := by
  intro f hf
  have h1 := h f hf
  have h2 := h' f hf
  cases f <;> simp_all [SameIn]

theorem SameExcept.mono {fs gs : List Field} {s t : State} (h : SameExcept fs s t) (hs : ∀ f ∈ fs, f ∈ gs) :
    SameExcept gs s t := fun f hf => h f fun hm => hf (hs f hm)

/-- A frame, cell by cell. -/
theorem sameExcept_iff {fs : List Field} {s t : State} : SameExcept fs s t ↔
    (.v ∉ fs → t.v = s.v) ∧ (.i ∉ fs → t.i = s.i) ∧ (.pc ∉ fs → t.pc = s.pc) ∧ (.stack ∉ fs → t.stack = s.stack) ∧
    (.sp ∉ fs → t.sp = s.sp) ∧ (.delay ∉ fs → t.delay = s.delay) ∧ (.sound ∉ fs → t.sound = s.sound) ∧
    (.fb ∉ fs → t.fb = s.fb) ∧ (.mem ∉ fs → ∀ a, t.mem.read a = s.mem.read a) ∧ (.key ∉ fs → t.key = s.key) ∧
    (.ir ∉ fs → t.ir = s.ir) ∧ (.run ∉ fs → t.run = s.run) ∧ (.faultCause ∉ fs → t.faultCause = s.faultCause) ∧
    (.faultInfo ∉ fs → t.faultInfo = s.faultInfo) ∧ (.fbDirty ∉ fs → t.fbDirty = s.fbDirty) ∧
    (.draws ∉ fs → t.draws = s.draws) ∧ (.diags ∉ fs → t.diags = s.diags) :=
  ⟨fun h => ⟨h .v, h .i, h .pc, h .stack, h .sp, h .delay, h .sound, h .fb, h .mem, h .key, h .ir, h .run, h .faultCause,
      h .faultInfo, h .fbDirty, h .draws, h .diags⟩,
    fun ⟨h1, h2, h3, h4, h5, h6, h7, h8, h9, h10, h11, h12, h13, h14, h15, h16, h17⟩ f hf => by
      cases f
      exacts [h1 hf, h2 hf, h3 hf, h4 hf, h5 hf, h6 hf, h7 hf, h8 hf, h9 hf, h10 hf, h11 hf, h12 hf, h13 hf, h14 hf,
        h15 hf, h16 hf, h17 hf]⟩

/-- All that raising a machine fault does (R152). -/
theorem State.raise_spec (s : State) (c : FaultCause) (n : FaultInfo) : FaultedWith c n s (s.raise c n) := by
  refine ⟨rfl, rfl, rfl, sameExcept_iff.2 ?_⟩
  simp

/-! ### What an instruction can do -/

/-- An instruction that stops the core raises a machine fault at its own address and does nothing else (R151, R152). -/
theorem exec_stops {i : Instr} {s t : State} (h : exec i s = .next t) (hr : s.run ≠ .faulted) (ht : t.run = .faulted) :
    ∃ c w a, t = s.raise c ⟨s.pc, w, a⟩ ∧ c ≠ .none ∧ c ≠ .loadTooLarge ∧ c ≠ .memBoundsFetch ∧
      (w = s.ir ∨ i = .ret ∧ w = 0x00EE) ∧ (c = .stackOverflow → s.sp = 16) ∧ (c = .stackUnderflow → s.sp = 0) := by
  cases i <;> simp only [exec] at h
  case ret =>
    unfold execRet at h
    split at h
    · next hp => obtain ⟨_, _, rfl⟩ := s.pop_eq_some.1 hp; cases h; simp [hr] at ht
    · next hp => have := s.pop_eq_none.1 hp; cases h; exact ⟨_, _, _, rfl, by simp [this]⟩
  case call =>
    unfold execCall at h
    split at h
    · next hp => obtain ⟨_, rfl⟩ := s.push_eq_some.1 hp; cases h; simp [hr] at ht
    · next hp => have := s.push_eq_none.1 hp; cases h; exact ⟨_, _, _, rfl, by simp [this]⟩
  case drw =>
    unfold execDrw at h
    split at h
    · cases h; simp [hr] at ht
    · cases h; exact ⟨_, _, _, rfl, by simp⟩
  case ldB =>
    unfold execLdB at h
    split at h
    · next hp => obtain ⟨_, rfl⟩ := s.storeBlock_eq_some.1 hp; cases h; simp [hr] at ht
    · cases h; exact ⟨_, _, _, rfl, by simp⟩
  case stRegs =>
    unfold execStRegs at h
    split at h
    · next hp => obtain ⟨_, rfl⟩ := s.storeBlock_eq_some.1 hp; cases h; simp [hr] at ht
    · cases h; exact ⟨_, _, _, rfl, by simp⟩
  case ldRegs =>
    unfold execLdRegs at h
    split at h
    · cases h; simp [hr] at ht
    · cases h; exact ⟨_, _, _, rfl, by simp⟩
  case ldVxK => cases h; unfold waitForKey at ht; split at ht <;> simp at ht
  all_goals (cases h; simp [hr, rndWith] at ht)

/-- An instruction that does not stop a running core keeps memory in its canonical form and leaves the fault cells;
only a key wait suspends the core; an occupied slot is an old one or the pushed address. -/
theorem exec_runs {i : Instr} {s t : State} (h : exec i s = .next t) (hr : s.run = .running) (hw : s.mem.wf = true)
    (ht : t.run ≠ .faulted) :
    t.mem.wf = true ∧ t.faultCause = s.faultCause ∧ t.faultInfo = s.faultInfo ∧
    (t.run = .awaitKey → t.pc = s.pc ∧ t.mem = s.mem ∧ t.ir = s.ir ∧ ∃ x, i = .ldVxK x) ∧
    ∀ k : Fin 16, k.val < t.sp.val → (t.stack[k] = s.stack[k] ∧ k.val < s.sp.val) ∨ t.stack[k] = s.pc := by
  cases i <;> simp only [exec] at h
  case ret =>
    unfold execRet at h
    split at h
    · next hp =>
      obtain ⟨_, _, rfl⟩ := s.pop_eq_some.1 hp
      cases h
      refine ⟨by simpa, by simp, by simp, by simp [hr], fun k hk => ?_⟩
      simp at hk
      simp; omega
    · cases h; simp at ht
  case call =>
    unfold execCall at h
    split at h
    · next hp =>
      obtain ⟨_, rfl⟩ := s.push_eq_some.1 hp
      cases h
      refine ⟨by simpa, by simp, by simp, by simp [hr], fun k hk => ?_⟩
      simp at hk
      by_cases e : s.sp.val = k.val
      · simp [e]
      · simp [e]; omega
    · cases h; simp at ht
  case drw =>
    unfold execDrw at h
    split at h <;> cases h
    · exact ⟨by simpa, by simp, by simp, by simp [hr], fun k hk => .inl ⟨rfl, hk⟩⟩
    · simp [State.raiseData] at ht
  case ldB x =>
    unfold execLdB at h
    split at h
    · next hp =>
      obtain ⟨hi, rfl⟩ := s.storeBlock_eq_some.1 hp
      cases h
      exact ⟨Memory.wf_writeBytes hw hi, by simp, by simp, by simp [hr], fun k hk => .inl ⟨rfl, hk⟩⟩
    · cases h; simp [State.raiseData] at ht
  case stRegs x =>
    unfold execStRegs at h
    split at h
    · next hp =>
      obtain ⟨hi, rfl⟩ := s.storeBlock_eq_some.1 hp
      cases h
      exact ⟨Memory.wf_writeBytes hw hi, by simp, by simp, by simp [hr], fun k hk => .inl ⟨rfl, hk⟩⟩
    · cases h; simp [State.raiseData] at ht
  case ldRegs =>
    unfold execLdRegs at h
    split at h <;> cases h
    · exact ⟨by simpa, by simp, by simp, by simp [hr], fun k hk => .inl ⟨rfl, hk⟩⟩
    · simp [State.raiseData] at ht
  case ldVxK x =>
    cases h
    unfold waitForKey
    split
    · exact ⟨by simpa, by simp, by simp, by simp, fun k hk => .inl ⟨rfl, hk⟩⟩
    · exact ⟨by simpa, by simp, by simp, by simp, fun k hk => .inl ⟨rfl, hk⟩⟩
  all_goals
    cases h
    exact ⟨by simpa [rndWith], by simp [rndWith], by simp [rndWith], by simp [hr, rndWith], fun k hk => .inl ⟨rfl, hk⟩⟩

end Sys2Proof.Machine
end

