-- ==== Sys2Proof/Laws/PerInstr.lean ====
section
/-! SUPPORT. Statements made of each instruction. Family `OwnRow`: the word the encoder writes for an instruction is
selected by the opcode table's row of that instruction's mnemonic (spec/30_encoding.md R65). -/

namespace Sys2Proof.Laws.OwnRow

open Sys2Proof

/-- The row of the instruction's own mnemonic selects its encoding. -/
def Statement (i : Instr) : Prop := ∃ r ∈ opTable, r.mnemonic = i.mnemonic ∧ r.selects (encode i) = true

theorem cls : Statement .cls :=
  ⟨⟨"CLS", 0xFFFF, 0x00E0⟩, by decide, rfl, by decide⟩

theorem ret : Statement .ret :=
  ⟨⟨"RET", 0xFFFF, 0x00EE⟩, by decide, rfl, by decide⟩

theorem jp (nnn : Addr) : Statement (.jp nnn) :=
  ⟨⟨"JP", 0xF000, 0x1000⟩, by decide, rfl, by
    simp only [OpRow.selects, encode, and_F000, opField_encodeNNN]; decide⟩

theorem call (nnn : Addr) : Statement (.call nnn) :=
  ⟨⟨"CALL", 0xF000, 0x2000⟩, by decide, rfl, by
    simp only [OpRow.selects, encode, and_F000, opField_encodeNNN]; decide⟩

theorem seImm (x : Reg) (nn : Byte) : Statement (.seImm x nn) :=
  ⟨⟨"SE_IMM", 0xF000, 0x3000⟩, by decide, rfl, by
    simp only [OpRow.selects, encode, and_F000, opField_encodeXNN]; decide⟩

theorem sneImm (x : Reg) (nn : Byte) : Statement (.sneImm x nn) :=
  ⟨⟨"SNE_IMM", 0xF000, 0x4000⟩, by decide, rfl, by
    simp only [OpRow.selects, encode, and_F000, opField_encodeXNN]; decide⟩

theorem seReg (x : Reg) (y : Reg) : Statement (.seReg x y) :=
  ⟨⟨"SE_REG", 0xF00F, 0x5000⟩, by decide, rfl, by
    simp only [OpRow.selects, encode, and_F00F, opField_encodeXYN, subField_encodeXYN]; decide⟩

theorem ldImm (x : Reg) (nn : Byte) : Statement (.ldImm x nn) :=
  ⟨⟨"LD_IMM", 0xF000, 0x6000⟩, by decide, rfl, by
    simp only [OpRow.selects, encode, and_F000, opField_encodeXNN]; decide⟩

theorem addImm (x : Reg) (nn : Byte) : Statement (.addImm x nn) :=
  ⟨⟨"ADD_IMM", 0xF000, 0x7000⟩, by decide, rfl, by
    simp only [OpRow.selects, encode, and_F000, opField_encodeXNN]; decide⟩

theorem ldReg (x : Reg) (y : Reg) : Statement (.ldReg x y) :=
  ⟨⟨"LD_REG", 0xF00F, 0x8000⟩, by decide, rfl, by
    simp only [OpRow.selects, encode, and_F00F, opField_encodeXYN, subField_encodeXYN]; decide⟩

theorem orReg (x : Reg) (y : Reg) : Statement (.orReg x y) :=
  ⟨⟨"OR", 0xF00F, 0x8001⟩, by decide, rfl, by
    simp only [OpRow.selects, encode, and_F00F, opField_encodeXYN, subField_encodeXYN]; decide⟩

theorem andReg (x : Reg) (y : Reg) : Statement (.andReg x y) :=
  ⟨⟨"AND", 0xF00F, 0x8002⟩, by decide, rfl, by
    simp only [OpRow.selects, encode, and_F00F, opField_encodeXYN, subField_encodeXYN]; decide⟩

theorem xorReg (x : Reg) (y : Reg) : Statement (.xorReg x y) :=
  ⟨⟨"XOR", 0xF00F, 0x8003⟩, by decide, rfl, by
    simp only [OpRow.selects, encode, and_F00F, opField_encodeXYN, subField_encodeXYN]; decide⟩

theorem addReg (x : Reg) (y : Reg) : Statement (.addReg x y) :=
  ⟨⟨"ADD_REG", 0xF00F, 0x8004⟩, by decide, rfl, by
    simp only [OpRow.selects, encode, and_F00F, opField_encodeXYN, subField_encodeXYN]; decide⟩

theorem sub (x : Reg) (y : Reg) : Statement (.sub x y) :=
  ⟨⟨"SUB", 0xF00F, 0x8005⟩, by decide, rfl, by
    simp only [OpRow.selects, encode, and_F00F, opField_encodeXYN, subField_encodeXYN]; decide⟩

theorem shr (x : Reg) (y : Reg) : Statement (.shr x y) :=
  ⟨⟨"SHR", 0xF00F, 0x8006⟩, by decide, rfl, by
    simp only [OpRow.selects, encode, and_F00F, opField_encodeXYN, subField_encodeXYN]; decide⟩

theorem subn (x : Reg) (y : Reg) : Statement (.subn x y) :=
  ⟨⟨"SUBN", 0xF00F, 0x8007⟩, by decide, rfl, by
    simp only [OpRow.selects, encode, and_F00F, opField_encodeXYN, subField_encodeXYN]; decide⟩

theorem shl (x : Reg) (y : Reg) : Statement (.shl x y) :=
  ⟨⟨"SHL", 0xF00F, 0x800E⟩, by decide, rfl, by
    simp only [OpRow.selects, encode, and_F00F, opField_encodeXYN, subField_encodeXYN]; decide⟩

theorem sneReg (x : Reg) (y : Reg) : Statement (.sneReg x y) :=
  ⟨⟨"SNE_REG", 0xF00F, 0x9000⟩, by decide, rfl, by
    simp only [OpRow.selects, encode, and_F00F, opField_encodeXYN, subField_encodeXYN]; decide⟩

theorem ldI (nnn : Addr) : Statement (.ldI nnn) :=
  ⟨⟨"LD_I", 0xF000, 0xA000⟩, by decide, rfl, by
    simp only [OpRow.selects, encode, and_F000, opField_encodeNNN]; decide⟩

theorem jpV0 (nnn : Addr) : Statement (.jpV0 nnn) :=
  ⟨⟨"JP_V0", 0xF000, 0xB000⟩, by decide, rfl, by
    simp only [OpRow.selects, encode, and_F000, opField_encodeNNN]; decide⟩

theorem rnd (x : Reg) (nn : Byte) : Statement (.rnd x nn) :=
  ⟨⟨"RND", 0xF000, 0xC000⟩, by decide, rfl, by
    simp only [OpRow.selects, encode, and_F000, opField_encodeXNN]; decide⟩

theorem drw (x : Reg) (y : Reg) (n : Height) : Statement (.drw x y n) :=
  ⟨⟨"DRW", 0xF000, 0xD000⟩, by decide, rfl, by
    simp only [OpRow.selects, encode, and_F000, opField_encodeXYN]; decide⟩

theorem skp (x : Reg) : Statement (.skp x) :=
  ⟨⟨"SKP", 0xF0FF, 0xE09E⟩, by decide, rfl, by
    simp only [OpRow.selects, encode, and_F0FF, opField_encodeXNN, nnField_encodeXNN]; decide⟩

theorem sknp (x : Reg) : Statement (.sknp x) :=
  ⟨⟨"SKNP", 0xF0FF, 0xE0A1⟩, by decide, rfl, by
    simp only [OpRow.selects, encode, and_F0FF, opField_encodeXNN, nnField_encodeXNN]; decide⟩

theorem ldVxDt (x : Reg) : Statement (.ldVxDt x) :=
  ⟨⟨"LD_VX_DT", 0xF0FF, 0xF007⟩, by decide, rfl, by
    simp only [OpRow.selects, encode, and_F0FF, opField_encodeXNN, nnField_encodeXNN]; decide⟩

theorem ldVxK (x : Reg) : Statement (.ldVxK x) :=
  ⟨⟨"LD_VX_K", 0xF0FF, 0xF00A⟩, by decide, rfl, by
    simp only [OpRow.selects, encode, and_F0FF, opField_encodeXNN, nnField_encodeXNN]; decide⟩

theorem ldDtVx (x : Reg) : Statement (.ldDtVx x) :=
  ⟨⟨"LD_DT_VX", 0xF0FF, 0xF015⟩, by decide, rfl, by
    simp only [OpRow.selects, encode, and_F0FF, opField_encodeXNN, nnField_encodeXNN]; decide⟩

theorem ldStVx (x : Reg) : Statement (.ldStVx x) :=
  ⟨⟨"LD_ST_VX", 0xF0FF, 0xF018⟩, by decide, rfl, by
    simp only [OpRow.selects, encode, and_F0FF, opField_encodeXNN, nnField_encodeXNN]; decide⟩

theorem addI (x : Reg) : Statement (.addI x) :=
  ⟨⟨"ADD_I", 0xF0FF, 0xF01E⟩, by decide, rfl, by
    simp only [OpRow.selects, encode, and_F0FF, opField_encodeXNN, nnField_encodeXNN]; decide⟩

theorem ldF (x : Reg) : Statement (.ldF x) :=
  ⟨⟨"LD_F", 0xF0FF, 0xF029⟩, by decide, rfl, by
    simp only [OpRow.selects, encode, and_F0FF, opField_encodeXNN, nnField_encodeXNN]; decide⟩

theorem ldB (x : Reg) : Statement (.ldB x) :=
  ⟨⟨"LD_B", 0xF0FF, 0xF033⟩, by decide, rfl, by
    simp only [OpRow.selects, encode, and_F0FF, opField_encodeXNN, nnField_encodeXNN]; decide⟩

theorem stRegs (x : Reg) : Statement (.stRegs x) :=
  ⟨⟨"ST_REGS", 0xF0FF, 0xF055⟩, by decide, rfl, by
    simp only [OpRow.selects, encode, and_F0FF, opField_encodeXNN, nnField_encodeXNN]; decide⟩

theorem ldRegs (x : Reg) : Statement (.ldRegs x) :=
  ⟨⟨"LD_REGS", 0xF0FF, 0xF065⟩, by decide, rfl, by
    simp only [OpRow.selects, encode, and_F0FF, opField_encodeXNN, nnField_encodeXNN]; decide⟩

end Sys2Proof.Laws.OwnRow
end

