-- ==== Sys2Proof/Tests/Slice0.lean ====
section
/-! SUPPORT. The model's own tests. Every expected result stands in spec/95_test_vectors.md (the row's id is named) or is
worked out by hand from the rule named; none was read off the model. `test_…` are tests; `witness_…` show, for a
statement of the obligations that has hypotheses, a state and operands that meet them all, at a boundary value of
each clause. -/

namespace Sys2Proof.Tests

open Sys2Proof.Machine

/-! ## Helpers -/

/-- The answer is a next state with that property. -/
def after (r : Result) (p : State → Bool) : Bool :=
  match r with
  | .next t => p t
  | _ => false

theorem next_of_after {r : Result} {p : State → Bool} (h : after r p = true) : ∃ t, r = .next t ∧ p t = true := by
  cases r with
  | next t => exact ⟨t, rfl, h⟩
  | fault _ => exact absurd h (by simp [after])
  | refused _ => exact absurd h (by simp [after])

/-- The state with the word where `pc` fetches it. -/
def atPc (w : Word) (s : State) : State := s.placeWord w

/-- The state after reset with some registers written. -/
def withRegs (rs : List (Reg × Byte)) : State := rs.foldl (fun s r => s.setReg r.1 r.2) State.reset

/-- The state with bytes stored from an address on. -/
def withBytes (a : Nat) (bs : List Byte) (s : State) : State := s.setMem (s.mem.writeBytes a bs)

/-- The state with those cells of the framebuffer turned over. -/
def withLit (ps : List Pixel) (s : State) : State := s.setFb (ps.foldl flipAt s.fb)

/-- The cells of the first list are lit and those of the second are not. -/
def litAndDark (t : State) (lit dark : List Pixel) : Bool := lit.all (litAt t.fb) && dark.all fun p => !litAt t.fb p

/-- A value of `FONT` that is not the default: its last byte is 7. -/
def otherFont : Font := defaultFont.set 79 7

/-- The state has stopped with that cause and record. -/
def stoppedWith (c : FaultCause) (n : FaultInfo) (t : State) : Bool :=
  t.run == .faulted && t.faultCause == c && t.faultInfo == n

/-! ## Words that are not well formed, and words that are (R65, R66) -/

/-- The ill-formed words of rows X1 to X12 that belong to this family. -/
theorem test_undefined_family0 :
    ([0x0000, 0x00E1, 0x01E0, 0x00FD, 0x0123] : List Word).all (fun w => !definedWord w && decode w == .error (.undefinedWord .family0)) = true := by
  decide

/-- The ill-formed words of rows X1 to X12 that belong to this family. -/
theorem test_undefined_family5 :
    ([0x5121, 0x5231] : List Word).all (fun w => !definedWord w && decode w == .error (.undefinedWord .family5)) = true := by
  decide

/-- The ill-formed words of rows X1 to X12 that belong to this family. -/
theorem test_undefined_family8 :
    ([0x8008, 0x800F] : List Word).all (fun w => !definedWord w && decode w == .error (.undefinedWord .family8)) = true := by
  decide

/-- The ill-formed words of rows X1 to X12 that belong to this family. -/
theorem test_undefined_family9 :
    ([0x9001] : List Word).all (fun w => !definedWord w && decode w == .error (.undefinedWord .family9)) = true := by
  decide

/-- The ill-formed words of rows X1 to X12 that belong to this family. -/
theorem test_undefined_familyE :
    ([0xE000, 0xE19F] : List Word).all (fun w => !definedWord w && decode w == .error (.undefinedWord .familyE)) = true := by
  decide

/-- The ill-formed words of rows X1 to X12 that belong to this family. -/
theorem test_undefined_familyF :
    ([0xF000, 0xF130, 0xF175, 0xFFFF] : List Word).all (fun w => !definedWord w && decode w == .error (.undefinedWord .familyF)) = true := by
  decide

/-- A word of each family is well formed. -/
theorem test_defined_words :
    ([0x00E0, 0x1234, 0x220A, 0x3100, 0x4100, 0x5230, 0x6A55, 0x71FF, 0x8126, 0x9230, 0xA300, 0xBFFF, 0xC30F, 0xD012,
      0xE29E, 0xF20A] : List Word).all definedWord = true := by
  decide

/-! ## Decoding words written out from the formats of R62 -/

/-- Control transfer: `0x1234`, `0x220A`, `0xBFFF` are format NNN, `0x3100`, `0x4105` format XNN. -/
theorem test_decode_control :
    decode 0x00EE = .ok .ret ∧ decode 0x1234 = .ok (.jp 0x234) ∧ decode 0x220A = .ok (.call 0x20A) ∧
    decode 0x3100 = .ok (.seImm 1 0x00) ∧ decode 0x4105 = .ok (.sneImm 1 0x05) ∧ decode 0x5230 = .ok (.seReg 2 3) ∧
    decode 0x9120 = .ok (.sneReg 1 2) ∧ decode 0xBFFF = .ok (.jpV0 0xFFF) := by
  decide

/-- Registers and ALU: `1000 xxxx yyyy nnnn` with the low nibble of each row. -/
theorem test_decode_alu :
    decode 0x6A55 = .ok (.ldImm 10 0x55) ∧ decode 0x71FF = .ok (.addImm 1 0xFF) ∧ decode 0x8120 = .ok (.ldReg 1 2) ∧
    decode 0x8121 = .ok (.orReg 1 2) ∧ decode 0x8122 = .ok (.andReg 1 2) ∧ decode 0x8123 = .ok (.xorReg 1 2) ∧
    decode 0x80F4 = .ok (.addReg 0 15) ∧ decode 0x8F15 = .ok (.sub 15 1) ∧ decode 0x8126 = .ok (.shr 1 2) ∧
    decode 0x8017 = .ok (.subn 0 1) ∧ decode 0x812E = .ok (.shl 1 2) ∧ decode 0xC30F = .ok (.rnd 3 0x0F) := by
  decide

/-- Index register and memory. -/
theorem test_decode_index :
    decode 0xA300 = .ok (.ldI 0x300) ∧ decode 0xF21E = .ok (.addI 2) ∧ decode 0xF029 = .ok (.ldF 0) ∧
    decode 0xF033 = .ok (.ldB 0) ∧ decode 0xF355 = .ok (.stRegs 3) ∧ decode 0xFF65 = .ok (.ldRegs 15) := by
  decide

/-- Display, keypad and timers. -/
theorem test_decode_devices :
    decode 0x00E0 = .ok .cls ∧ decode 0xD01F = .ok (.drw 0 1 15) ∧ decode 0xE29E = .ok (.skp 2) ∧
    decode 0xE2A1 = .ok (.sknp 2) ∧ decode 0xF107 = .ok (.ldVxDt 1) ∧ decode 0xF20A = .ok (.ldVxK 2) ∧
    decode 0xF015 = .ok (.ldDtVx 0) ∧ decode 0xF418 = .ok (.ldStVx 4) := by
  decide

/-- Bytes decode high byte first; fewer than two do not decode (R44, R60). -/
theorem test_decode_bytes :
    decodeBytes [0x6A, 0x55, 0x01] = .ok (.ldImm 10 0x55, [0x01]) ∧ decodeBytes [0x6A] = .error .truncated := by
  decide

/-- The host's numbering: bit 0 is the least significant bit of the word. -/
theorem test_decode_table_word :
    decodeTableWord 16 0xD012 = some (.drw 0 1 2) ∧ decodeTableWord 16 0x5121 = none := by
  decide

/-! ## One step of each instruction, on the rows of spec/95_test_vectors.md -/

/-- Row A1: load immediate. -/
theorem test_ldImm :
    after (step (atPc 0x6A55 (withRegs []))) (fun t => t.reg 10 == 0x55 && t.pc == 0x202) = true := by
  decide

/-- Row A2: `VF` as a plain destination. -/
theorem test_ldImm_vf :
    after (step (atPc 0x6F07 (withRegs []))) (fun t => t.reg 15 == 0x07 && t.pc == 0x202) = true := by
  decide

/-- Row A3: the sum wraps, the flag is untouched. -/
theorem test_addImm :
    after (step (atPc 0x71FF (withRegs [(1, 5), (15, 0x77)])))
      (fun t => t.reg 1 == 4 && t.reg 15 == 0x77 && t.pc == 0x202) = true := by
  decide

/-- Row A5: `x = 15`. -/
theorem test_addImm_vf :
    after (step (atPc 0x7F01 (withRegs [(15, 0xFF)]))) (fun t => t.reg 15 == 0 && t.pc == 0x202) = true := by
  decide

/-- Row A6: move. -/
theorem test_ldReg :
    after (step (atPc 0x8120 (withRegs [(2, 0x3C)])))
      (fun t => t.reg 1 == 0x3C && t.reg 2 == 0x3C && t.pc == 0x202) = true := by
  decide

/-- Row A7: OR, the flag is untouched. -/
theorem test_orReg :
    after (step (atPc 0x8121 (withRegs [(1, 0xF0), (2, 0x3C), (15, 0x77)])))
      (fun t => t.reg 1 == 0xFC && t.reg 2 == 0x3C && t.reg 15 == 0x77 && t.pc == 0x202) = true := by
  decide

/-- Row A8: AND, the flag is untouched. -/
theorem test_andReg :
    after (step (atPc 0x8122 (withRegs [(1, 0xF0), (2, 0x3C), (15, 0x77)])))
      (fun t => t.reg 1 == 0x30 && t.reg 2 == 0x3C && t.reg 15 == 0x77 && t.pc == 0x202) = true := by
  decide

/-- Row A9: XOR, the flag is untouched. -/
theorem test_xorReg :
    after (step (atPc 0x8123 (withRegs [(1, 0xF0), (2, 0x3C), (15, 0x77)])))
      (fun t => t.reg 1 == 0xCC && t.reg 2 == 0x3C && t.reg 15 == 0x77 && t.pc == 0x202) = true := by
  decide

/-- Row A10: XOR with itself. -/
theorem test_xorReg_self :
    after (step (atPc 0x8113 (withRegs [(1, 0xF0)]))) (fun t => t.reg 1 == 0 && t.pc == 0x202) = true := by
  decide

/-- Row A14: `x = 15`: `VF` is the sum, not the carry. -/
theorem test_addReg_vf :
    after (step (atPc 0x8F14 (withRegs [(15, 0xF0), (1, 5)])))
      (fun t => t.reg 15 == 0xF5 && t.reg 1 == 5 && t.pc == 0x202) = true := by
  decide

/-- Row A15: `y = 15`: the old `VF` is the operand. -/
theorem test_addReg :
    after (step (atPc 0x80F4 (withRegs [(0, 0xFF), (15, 1)])))
      (fun t => t.reg 0 == 0 && t.reg 15 == 1 && t.pc == 0x202) = true := by
  decide

/-- Row S5: a borrow clears the flag. -/
theorem test_sub :
    after (step (atPc 0x8015 (withRegs [(0, 5), (1, 0x0A), (15, 1)])))
      (fun t => t.reg 0 == 0xFB && t.reg 1 == 0x0A && t.reg 15 == 0 && t.pc == 0x202) = true := by
  decide

/-- Row A17: equal operands: no borrow. -/
theorem test_sub_equal :
    after (step (atPc 0x8015 (withRegs [(0, 7), (1, 7)])))
      (fun t => t.reg 0 == 0 && t.reg 1 == 7 && t.reg 15 == 1 && t.pc == 0x202) = true := by
  decide

/-- Row A21: reverse subtract borrows. -/
theorem test_subn :
    after (step (atPc 0x8017 (withRegs [(0, 0x0A), (1, 5), (15, 1)])))
      (fun t => t.reg 0 == 0xFB && t.reg 1 == 5 && t.reg 15 == 0 && t.pc == 0x202) = true := by
  decide

/-- Row A23: equal operands: no borrow. -/
theorem test_subn_equal :
    after (step (atPc 0x8017 (withRegs [(0, 7), (1, 7)])))
      (fun t => t.reg 0 == 0 && t.reg 1 == 7 && t.reg 15 == 1 && t.pc == 0x202) = true := by
  decide

/-- Row A24: the source of the shift is `V2`. -/
theorem test_shr :
    after (step (atPc 0x8126 (withRegs [(1, 0xAA), (2, 5)])))
      (fun t => t.reg 1 == 2 && t.reg 2 == 5 && t.reg 15 == 1 && t.pc == 0x202) = true := by
  decide

/-- Row A29: `y = 15`: the old `VF` is shifted. -/
theorem test_shr_y15 :
    after (step (atPc 0x81F6 (withRegs [(15, 3), (1, 0x77)])))
      (fun t => t.reg 1 == 1 && t.reg 15 == 1 && t.pc == 0x202) = true := by
  decide

/-- Row A30: bit 7 is shifted out. -/
theorem test_shl :
    after (step (atPc 0x812E (withRegs [(1, 0x55), (2, 0x81)])))
      (fun t => t.reg 1 == 2 && t.reg 2 == 0x81 && t.reg 15 == 1 && t.pc == 0x202) = true := by
  decide

/-- Row A34: `x = y = 15`. -/
theorem test_shl_x15 :
    after (step (atPc 0x8FFE (withRegs [(15, 0x81)]))) (fun t => t.reg 15 == 2 && t.pc == 0x202) = true := by
  decide

/-- Rows A35 and A36: the drawn byte is masked; it is an argument here, since no step has a known one. -/
theorem test_rnd :
    (rndWith 0xB7 3 0x0F State.reset).reg 3 = 0x07 ∧ (rndWith 0xFF 3 0x00 (withRegs [(3, 0x99)])).reg 3 = 0x00 := by
  decide

/-- R112: a step of `Cxnn` with `nn = 0` gives 0 whatever the byte, and counts the draw. -/
theorem test_rnd_step :
    ∃ t, step (atPc 0xC300 (withRegs [(3, 0x99)])) = .next t ∧ t.reg 3 = 0x00 ∧ t.draws = 1 ∧ t.pc = 0x202 := by
  refine ⟨rndWith (Config.randByte 0) 3 0x00 ((atPc 0xC300 (withRegs [(3, 0x99)])).setIr 0xC300).countDraw, rfl, ?_, rfl, rfl⟩
  have h : ∀ (r : Byte) (s : State), (rndWith r 3 0x00 s).reg 3 = 0x00 := by
    intro r s
    simp [rndWith, State.reg, State.setReg, State.stepPc, State.advance, State.setPc, State.setV]
  exact h _ _

/-- Row C1: jump. -/
theorem test_jp :
    after (step (atPc 0x1234 (State.reset.setPc 0x200))) (fun t => t.pc == 0x234 && t.ir == 0x1234) = true := by
  decide

/-- Row C2: a jump to itself changes nothing but `ir`. -/
theorem test_jp_self :
    after (step (atPc 0x1200 State.reset)) (fun t => t == (atPc 0x1200 State.reset).setIr 0x1200) = true := by
  decide

/-- Row C4: the address of the call itself is pushed. -/
theorem test_call :
    after (step (atPc 0x220A (State.reset.setPc 0x204)))
      (fun t => t.pc == 0x20A && t.sp == 1 && t.stack[0] == 0x204) = true := by
  decide

/-- Row C6: a full stack stops the core, no slot is written. -/
theorem test_call_full :
    after (step (atPc 0x2300 ((State.reset.setSp 16).setPc 0x204)))
      (fun t => t.sp == 16 && t.stack[15] == 0 && t.pc == 0x204 &&
      stoppedWith .stackOverflow ⟨0x204, 0x2300, 0⟩ t) = true := by
  decide

/-- Row C7: return adds 2 and the slot keeps its content. -/
theorem test_ret :
    after (step (atPc 0x00EE (((State.reset.setSp 1).setStack (State.reset.stack.set 0 0x204)).setPc 0x20C)))
      (fun t => t.pc == 0x206 && t.sp == 0 && t.stack[0] == 0x204) = true := by
  decide

/-- Row C8: an empty stack stops the core. -/
theorem test_ret_empty :
    after (step (atPc 0x00EE (State.reset.setPc 0x20C)))
      (fun t => t.pc == 0x20C && stoppedWith .stackUnderflow ⟨0x20C, 0x00EE, 0⟩ t) = true := by
  decide

/-- Row C10: the skip is taken. -/
theorem test_seImm :
    after (step (atPc 0x3100 (State.reset.setPc 0x208))) (fun t => t.pc == 0x20C) = true := by
  decide

/-- Row C11: the skip is not taken. -/
theorem test_seImm_not :
    after (step (atPc 0x3100 ((withRegs [(1, 1)]).setPc 0x208))) (fun t => t.pc == 0x20A) = true := by
  decide

/-- Row C14: the skip is taken. -/
theorem test_sneImm :
    after (step (atPc 0x4100 ((withRegs [(1, 1)]).setPc 0x208))) (fun t => t.pc == 0x20C) = true := by
  decide

/-- Row C13: the skip is not taken. -/
theorem test_sneImm_not :
    after (step (atPc 0x4100 (State.reset.setPc 0x208))) (fun t => t.pc == 0x20A) = true := by
  decide

/-- Row C15: the skip is taken. -/
theorem test_seReg :
    after (step (atPc 0x5230 ((withRegs [(2, 7), (3, 7)]).setPc 0x300))) (fun t => t.pc == 0x304) = true := by
  decide

/-- Row C16: the skip is not taken. -/
theorem test_seReg_not :
    after (step (atPc 0x5230 ((withRegs [(2, 7), (3, 8)]).setPc 0x300))) (fun t => t.pc == 0x302) = true := by
  decide

/-- Row C18: the skip is taken. -/
theorem test_sneReg :
    after (step (atPc 0x9230 ((withRegs [(2, 7), (3, 8)]).setPc 0x300))) (fun t => t.pc == 0x304) = true := by
  decide

/-- Row C19: the skip is not taken. -/
theorem test_sneReg_not :
    after (step (atPc 0x9230 ((withRegs [(2, 7), (3, 7)]).setPc 0x300))) (fun t => t.pc == 0x302) = true := by
  decide

/-- Row C21: computed jump. -/
theorem test_jpV0 :
    after (step (atPc 0xB300 ((withRegs [(0, 4)]).setPc 0x200))) (fun t => t.pc == 0x304) = true := by
  decide

/-- Row C22: the sum is not reduced to 12 bits. -/
theorem test_jpV0_beyond :
    after (step (atPc 0xBFFF ((withRegs [(0, 0xFF)]).setPc 0x200))) (fun t => t.pc == 0x10FE) = true := by
  decide

/-- Row C24: the fetch needs both bytes. -/
theorem test_fetch_fault :
    after (step (State.reset.setPc 0xFFF))
      (fun t => t.ir == 0 && t.pc == 0xFFF && stoppedWith .memBoundsFetch ⟨0xFFF, 0, 0x1000⟩ t) = true := by
  decide

/-- Row C26: an odd `pc`. -/
theorem test_fetch_odd :
    after (step (atPc 0x6A55 (State.reset.setPc 0x201))) (fun t => t.reg 10 == 0x55 && t.pc == 0x203) = true := by
  decide

/-- Row X7: not a skip, one diagnostic. -/
theorem test_undefined_word :
    after (step (atPc 0x5231 (withRegs [(2, 7), (3, 7)])))
      (fun t => t.pc == 0x202 && t.diags == [⟨.unknownOpcode, 0x200, 0x5231⟩] && t.run == .running) = true := by
  decide

/-- Row M2: the largest immediate. -/
theorem test_ldI :
    after (step (atPc 0xAFFF (State.reset))) (fun t => t.i == 0xFFF && t.pc == 0x202) = true := by
  decide

/-- Row M3: out of the address space, no fault and no flag. -/
theorem test_addI :
    after (step (atPc 0xF21E ((withRegs [(2, 5), (15, 0x77)]).setI 0xFFE)))
      (fun t => t.i == 0x1003 && t.reg 15 == 0x77 && t.run == .running) = true := by
  decide

/-- Row M5: the 16-bit wrap. -/
theorem test_addI_wrap :
    after (step (atPc 0xF21E ((withRegs [(2, 0xFF)]).setI 0xFFF0))) (fun t => t.i == 0x00EF) = true := by
  decide

/-- Row S12: glyph 10. -/
theorem test_ldF :
    after (step (atPc 0xF029 (withRegs [(0, 0x0A)]))) (fun t => t.i == 0x32) = true := by
  decide

/-- Row M8: the whole byte is used. -/
theorem test_ldF_byte :
    after (step (atPc 0xF029 (withRegs [(0, 0xFF)]))) (fun t => t.i == 1275) = true := by
  decide

/-- Row M13: the last legal base. -/
theorem test_ldB :
    after (step (atPc 0xF033 ((withRegs [(0, 99)]).setI 4093)))
      (fun t => t.mem.readBytes 4093 3 == [0, 9, 9] && t.i == 4093 && t.pc == 0x202) = true := by
  decide

/-- Row M14: no partial store. -/
theorem test_ldB_fault :
    after (step (atPc 0xF033 ((withRegs [(0, 99)]).setI 4094)))
      (fun t => t.mem.readBytes 4094 2 == [0, 0] && t.pc == 0x200 &&
      stoppedWith .memBoundsData ⟨0x200, 0xF033, 0x1000⟩ t) = true := by
  decide

/-- Row M16: `V4` is not stored. -/
theorem test_stRegs :
    after (step (atPc 0xF355 ((withRegs [(0, 1), (1, 2), (2, 3), (3, 4), (4, 9)]).setI 0x300)))
      (fun t => t.mem.readBytes 0x300 5 == [1, 2, 3, 4, 0] && t.i == 0x304) = true := by
  decide

/-- Row M18: no partial store. -/
theorem test_stRegs_fault :
    after (step (atPc 0xF155 ((withRegs [(0, 0xAB), (1, 0xCD)]).setI 0xFFF)))
      (fun t => t.mem.read 0xFFF == 0 && t.i == 0xFFF &&
      stoppedWith .memBoundsData ⟨0x200, 0xF155, 0x1000⟩ t) = true := by
  decide

/-- Row M21: `V4` is not loaded. -/
theorem test_ldRegs :
    after (step (atPc 0xF365 (withBytes 0x300 [1, 2, 3, 4, 5] ((withRegs [(4, 9)]).setI 0x300))))
      (fun t => t.v.toList.take 5 == [1, 2, 3, 4, 9] && t.i == 0x304) = true := by
  decide

/-- Row M22: reads the font, `VF` included. -/
theorem test_ldRegs_font :
    after (step (atPc 0xFF65 (State.reset)))
      (fun t => t.v.toList == [0xF0, 0x90, 0x90, 0x90, 0xF0, 0x20, 0x60, 0x20, 0x20, 0x70, 0xF0, 0x10, 0xF0, 0x80, 0xF0, 0xF0] &&
      t.i == 0x10) = true := by
  decide

/-- Row DS1: clears, the flag is untouched. -/
theorem test_cls :
    after (step (atPc 0x00E0 (withLit [(0, 0), (63, 31)] (withRegs [(15, 0x77)]))))
      (fun t => litAndDark t [] [(0, 0), (63, 31)] && t.reg 15 == 0x77 && t.fbDirty) = true := by
  decide

/-- Row DS6: wrap in both directions. -/
theorem test_drw_wrap :
    after (step (atPc 0xD012 (withBytes 0x300 [0xC3, 0x81] ((withRegs [(0, 62), (1, 31)]).setI 0x300))))
      (fun t => litAndDark t [(62, 31), (63, 31), (4, 31), (5, 31), (62, 0), (5, 0)]
        [(0, 31), (6, 31), (61, 31), (63, 0), (4, 0), (62, 30)] && t.reg 15 == 0 && t.fbDirty) = true := by
  decide

/-- Row DS7: one pixel lit, one unlit. -/
theorem test_drw_collision :
    after (step (atPc 0xD011 (withLit [(1, 0)] (withBytes 0x300 [0xC0] (State.reset.setI 0x300)))))
      (fun t => litAndDark t [(0, 0)] [(1, 0), (2, 0)] && t.reg 15 == 1) = true := by
  decide

/-- Row K5: key 0 is a key. -/
theorem test_skp :
    after (step (atPc 0xE09E (State.reset.setKey (some 0)))) (fun t => t.pc == 0x204) = true := by
  decide

/-- Row K6: no key is not key 0. -/
theorem test_skp_not :
    after (step (atPc 0xE29E (State.reset))) (fun t => t.pc == 0x202) = true := by
  decide

/-- Row K7: no key latched. -/
theorem test_sknp :
    after (step (atPc 0xE2A1 (withRegs [(2, 5)]))) (fun t => t.pc == 0x204) = true := by
  decide

/-- Row K8: the key is latched. -/
theorem test_sknp_not :
    after (step (atPc 0xE2A1 ((withRegs [(2, 5)]).setKey (some 5)))) (fun t => t.pc == 0x202) = true := by
  decide

/-- Row K11: suspends. -/
theorem test_ldVxK_suspends :
    after (step (atPc 0xF20A (State.reset.setPc 0x20A)))
      (fun t => t.run == .awaitKey && t.pc == 0x20A && t.ir == 0xF20A && t.reg 2 == 0) = true := by
  decide

/-- Row K15: completes, `x = 15`. -/
theorem test_ldVxK :
    after (step (atPc 0xFF0A (State.reset.setKey (some 0xC))))
      (fun t => t.reg 15 == 0x0C && t.pc == 0x202 && t.run == .running) = true := by
  decide

/-- Row K14: key 0 resumes the suspended `F20A`. -/
theorem test_resume :
    after (step (((((withRegs [(2, 9)]).setRun .awaitKey).setIr 0xF20A).setPc 0x20A).setKey (some 0)))
      (fun t => t.reg 2 == 0 && t.pc == 0x20C && t.run == .running) = true := by
  decide

/-- Row TM1: reading leaves the timer. -/
theorem test_ldVxDt :
    after (step (atPc 0xF107 (State.reset.setDelay 3))) (fun t => t.reg 1 == 3 && t.delay == 3) = true := by
  decide

/-- Row TM3: the timer is replaced. -/
theorem test_ldDtVx :
    after (step (atPc 0xF015 ((withRegs [(0, 0xFF)]).setDelay 7))) (fun t => t.delay == 255) = true := by
  decide

/-- Row TM4: the sound timer. -/
theorem test_ldStVx :
    after (step (atPc 0xF418 (withRegs [(4, 0x10)]))) (fun t => t.sound == 16) = true := by
  decide

/-! ## The host's transactions -/

/-- Rows TM6 and TM7: the timers are independent, floor at 0, and move in a stopped core. -/
theorem test_ticks :
    (tickTimers ((State.reset.setDelay 0).setSound 254)).sound = 253 ∧ (tickTimers (State.reset.setDelay 0)).delay = 0 ∧
    (tickTimers ((State.reset.setRun .faulted).setDelay 2)).delay = 1 := by
  decide

set_option maxRecDepth 4000 in
/-- Row LD3 with its cause; a program of two bytes lies at 0x200, below it the core's own `FONT` (R180, R182). -/
theorem test_initialize :
    stoppedWith .loadTooLarge ⟨0, 0, 0⟩ (initializeWith defaultFont (.replicate 3585 0xAA) State.reset) = true ∧
    (initializeWith otherFont [0x12, 0x00] (State.reset.setRun .faulted)).mem.readBytes 0x1FF 4 = [0, 0x12, 0x00, 0] ∧
    (initializeWith otherFont [0x12, 0x00] (State.reset.setRun .faulted)).run = .running ∧
    (initializeWith otherFont [0x12, 0x00] State.reset).mem.readBytes 78 3 = [0x80, 7, 0] := by
  refine ⟨?_, by decide, by decide, by decide⟩
  unfold initializeWith
  rw [if_pos (by rw [List.length_replicate]; decide)]
  decide

/-- R42, R180: the default font needs no entry, and its first and last glyphs are those of the table. -/
theorem test_default_font :
    (State.resetWith defaultFont).mem = [] ∧ defaultFont.toList.take 5 = [0xF0, 0x90, 0x90, 0x90, 0xF0] ∧
    defaultFont.toList.drop 75 = [0xF0, 0x80, 0xF0, 0x80, 0x80] := by
  decide

/-- R137: cell (62, 31) is bit 2046 of the port, and its neighbours are not. -/
theorem test_fb_port :
    let s := withLit [(62, 31)] State.reset
    fbPort s 2046 = true ∧ fbPort s 2045 = false ∧ fbPort s 62 = false := by
  decide

/-- The codes of R22 and R151 on the ports. -/
theorem test_read_ports :
    (readPorts (State.reset.raise .memBoundsData ⟨0x200, 0xF033, 0x1000⟩)).run = 2 ∧
    (readPorts (State.reset.raise .memBoundsData ⟨0x200, 0xF033, 0x1000⟩)).faultCause = 4 ∧
    (readPorts State.reset).faultCause = 0 := by
  decide

/-- R193: the customary end of a program. -/
theorem test_jumps_to_self : jumpsToSelf (atPc 0x1200 State.reset) = true ∧ jumpsToSelf (atPc 0x1202 State.reset) = false := by
  decide

/-- The word placed for the host is the one the very next step runs, from reset and from a core that has stopped. -/
theorem test_with_fetch_word :
    after (step (State.reset.withFetchWord 16 0x6A55)) (fun t => t.reg 10 == 0x55 && t.pc == 0x202) = true ∧
    after (step (((State.reset.setRun .faulted).setPc 0xFFF).withFetchWord 16 0x6A55)) (fun t => t.reg 10 == 0x55) = true := by
  decide

/-- Memory after a reset is in its canonical form, and so it is after a word is placed; writing the unlisted byte back
removes the entry. -/
theorem test_memory_canonical :
    State.reset.mem.wf = true ∧ (atPc 0x1234 State.reset).mem.wf = true ∧
    (State.reset.mem.write 0x300 7).write 0x300 0 = State.reset.mem := by
  decide

/-! ## The hypotheses of the obligations can be met -/

theorem witness_EncodeOfDecodeIsTheWord :
    decode 0xFF65 = .ok (.ldRegs 15) ∧ decode 0x00E0 = .ok .cls := by decide

theorem witness_DecoderAgreesWithOpcodeTable :
    (∃ i, decode 0xF065 = .ok i) ∧ (∃ r ∈ opTable, r.selects 0xF065 = true) ∧
    (∀ r ∈ opTable, r.selects 0xFFFF = false) ∧ ∀ r ∈ opTable, r.selects 0x0000 = false := 
  ⟨⟨.ldRegs 0, by decide⟩, ⟨⟨"LD_REGS", 0xF0FF, 0xF065⟩, by decide, by decide⟩, by decide, by decide⟩

theorem witness_OpcodeRowsDoNotOverlap :
    ∃ r r' : OpRow, r ∈ opTable ∧ r' ∈ opTable ∧ r.selects 0x1FFF = true ∧ r'.selects 0x1FFF = true := 
  ⟨⟨"JP", 0xF000, 0x1000⟩, ⟨"JP", 0xF000, 0x1000⟩, by decide⟩

/-- A word on either side of each line of the table. -/
theorem witness_UndefinedWordsByFamily :
    ([0x00DF, 0x5FFF, 0x8FFF, 0x900F, 0xE09F, 0xFF66] : List Word).all (fun w => !definedWord w) = true ∧
    ([0x00EE, 0x5FF0, 0x8FFE, 0x9000, 0xEF9E, 0xFF65] : List Word).all definedWord = true := by decide

/-- At the last address a word can be fetched from. -/
theorem witness_StepRunsDecodedInstruction :
    let s := atPc 0x6A55 (State.reset.setPc 4094)
    s.run = .running ∧ s.pc.toNat + 1 ≤ 4095 ∧
    (0x6A55 : Word).toNat = (s.mem.read s.pc.toNat).toNat * 256 + (s.mem.read (s.pc.toNat + 1)).toNat ∧
    decode 0x6A55 = .ok (.ldImm 10 0x55) := by decide

theorem witness_UndefinedWordIsSkippedWithDiagnostic :
    let s := State.reset.setPc 4094
    s.run = .running ∧ s.pc.toNat + 1 ≤ 4095 ∧
    (0x0000 : Word).toNat = (s.mem.read s.pc.toNat).toNat * 256 + (s.mem.read (s.pc.toNat + 1)).toNat ∧
    decode 0x0000 = .error (.undefinedWord .family0) := by decide

/-- The first address a word cannot be fetched from, and the largest `pc`. -/
theorem witness_FetchOutsideMemoryFaults :
    (State.reset.setPc 4095).run = .running ∧ 4095 < (State.reset.setPc 4095).pc.toNat + 1 ∧
    4095 < (State.reset.setPc 0x10FE).pc.toNat + 1 := by decide

theorem witness_AwaitingStepResumesOrWaits :
    let s := (State.reset.setRun .awaitKey).setIr 0xFF0A
    s.run = .awaitKey ∧ s.key = none ∧ (s.setKey (some 0)).key = some 0 ∧ (15 : Reg).val = s.ir.toNat / 256 % 16 := by decide

theorem witness_FaultedCoreStopsUntilReset :
    (State.reset.setRun .faulted).run = .faulted ∧ (List.replicate 3584 (0xAA : Byte)).length ≤ 3584 := 
  ⟨rfl, by rw [List.length_replicate]⟩

/-- The invariant holds of a core about to run the word `w` from reset, when that much can be computed. -/
theorem inv_atPc {w : Word} {s : State} (hs : s = atPc w State.reset) (hw : s.mem.wf = true) : Inv s := by
  subst hs
  exact ⟨hw, (by decide : State.reset.pc.toNat ≤ 0x10FE), by simp [atPc, State.placeWord, State.setMem, State.reset],
    by simp [atPc, State.placeWord, State.setMem, State.reset],
    by simp [atPc, State.placeWord, State.setMem, State.reset],
    by simp [atPc, State.placeWord, State.setMem, State.reset],
    by simp [atPc, State.placeWord, State.setMem, State.reset],
    by simp [atPc, State.placeWord, State.setMem, State.reset],
    by simp [atPc, State.placeWord, State.setMem, State.reset],
    by simp [atPc, State.placeWord, State.setMem, State.reset]⟩

/-- A step that goes on. -/
theorem witness_ProgramCounterAfterStep :
    ∃ s t : State, Inv s ∧ s.run = .running ∧ s.fetch = some 0xB234 ∧ decode 0xB234 = .ok (.jpV0 0x234) ∧
      step s = .next t ∧ t.run ≠ .faulted := by
  obtain ⟨t, ht, hp⟩ := next_of_after (by decide : after (step (atPc 0xB234 State.reset)) (fun t => t.run != .faulted) = true)
  exact ⟨_, t, inv_atPc rfl (by decide), by decide, by decide, by decide, ht, by simpa using hp⟩

/-- A step that stops the core. -/
theorem witness_ProgramCounterAfterStep_stops :
    ∃ s t : State, Inv s ∧ s.run = .running ∧ s.fetch = some 0x00EE ∧ decode 0x00EE = .ok .ret ∧
      step s = .next t ∧ t.run = .faulted := by
  obtain ⟨t, ht, hp⟩ := next_of_after (by decide : after (step (atPc 0x00EE State.reset)) (fun t => t.run == .faulted) = true)
  exact ⟨_, t, inv_atPc rfl (by decide), by decide, by decide, by decide, ht, by simpa using hp⟩

/-- Each condition just met and just not met. -/
theorem witness_InstructionsFaultExactlyWhen :
    State.reset.run ≠ .faulted ∧ FaultCondition .ret State.reset ∧ ¬ FaultCondition .ret (State.reset.setSp 1) ∧
    FaultCondition (.call 0) (State.reset.setSp 16) ∧ ¬ FaultCondition (.call 0) (State.reset.setSp 15) ∧
    FaultCondition (.drw 0 0 15) (State.reset.setI 4082) ∧ ¬ FaultCondition (.drw 0 0 15) (State.reset.setI 4081) ∧
    FaultCondition (.ldB 0) (State.reset.setI 4094) ∧ ¬ FaultCondition (.ldB 0) (State.reset.setI 4093) ∧
    FaultCondition (.stRegs 15) (State.reset.setI 4081) ∧ ¬ FaultCondition (.stRegs 15) (State.reset.setI 4080) ∧
    FaultCondition (.ldRegs 0) (State.reset.setI 4096) ∧ ¬ FaultCondition (.ldRegs 0) (State.reset.setI 4095) := by
  unfold FaultCondition
  decide

theorem witness_MachineFaultsArePrecise :
    (∃ t, step (State.reset.setPc 4095) = .next t ∧ State.reset.run ≠ .faulted ∧ t.run = .faulted ∧
      t.faultCause = .memBoundsFetch) ∧
    ∃ t, step (atPc 0x00EE State.reset) = .next t ∧ State.reset.run ≠ .faulted ∧ t.run = .faulted ∧
      t.faultCause ≠ .memBoundsFetch := by
  obtain ⟨t, ht, hp⟩ := next_of_after (by decide : after (step (State.reset.setPc 4095))
    (fun t => t.run == .faulted && t.faultCause == .memBoundsFetch) = true)
  obtain ⟨u, hu, hq⟩ := next_of_after (by decide : after (step (atPc 0x00EE State.reset))
    (fun t => t.run == .faulted && t.faultCause != .memBoundsFetch) = true)
  simp only [Bool.and_eq_true, beq_iff_eq, bne_iff_ne] at hp hq
  exact ⟨⟨t, ht, by decide, hp⟩, ⟨u, hu, by decide, hq⟩⟩

theorem witness_JumpSetsPc :
    (0xFFF : Addr).toNat = 0xFFF ∧ 4095 < 0xFFF + 1 := by decide

theorem witness_CallPushesItsAddress :
    (State.reset.setSp 15).sp.val < 16 ∧ (State.reset.setSp 16).sp.val = 16 := by decide

theorem witness_ReturnResumesAfterTheCall :
    0 < (State.reset.setSp 1).sp.val ∧ 0 < (State.reset.setSp 16).sp.val ∧ State.reset.sp.val = 0 := by decide

/-- With a subroutine that called: the slot above the call's own is overwritten. -/
theorem witness_CallThenReturnComesBack :
    ∃ t u : State, (State.reset.setSp 14).sp.val < 16 ∧ exec (.call 0x300) (State.reset.setSp 14) = .next t ∧ u.sp = t.sp ∧
      u.stack[14] = t.stack[14] ∧ u.stack ≠ t.stack := by
  obtain ⟨t, ht, hp⟩ := next_of_after (by decide : after (exec (.call 0x300) (State.reset.setSp 14))
    (fun t => t.stack[14] == (t.stack.set 15 0x300)[14] && t.stack != t.stack.set 15 0x300) = true)
  simp only [Bool.and_eq_true, beq_iff_eq, bne_iff_ne] at hp
  exact ⟨t, t.setStack (t.stack.set 15 0x300), by decide, ht, rfl, hp.1.symm, fun h => hp.2 h.symm⟩

theorem witness_ComputedJumpAddsV0 :
    4094 < (State.reset.reg 0).toNat + (0xFFF : Addr).toNat ∧
    4094 < ((withRegs [(0, 0xFF)]).reg 0).toNat + (0xF00 : Addr).toNat := by decide

theorem witness_SkipsComparingWithImmediate :
    State.reset.reg 1 = 0 ∧ State.reset.reg 1 ≠ 0xFF := by decide

theorem witness_SkipsComparingRegisters :
    State.reset.reg 2 = State.reset.reg 3 ∧ (withRegs [(2, 7)]).reg 2 ≠ (withRegs [(2, 7)]).reg 3 ∧
    (1 : BitVec 4) ≠ 0 ∧ (15 : BitVec 4) ≠ 0 := by decide

/-- For AddSetsCarry, SubtractSetsNoBorrow, ReverseSubtractSetsNoBorrow, ShiftRightTakesTheLowBit and
ShiftLeftTakesTheHighBit: a register other than `VF`, and both sides of each condition. -/
theorem witness_FlagArithmetic :
    (14 : Reg) ≠ VF ∧ (0 : Reg) ≠ VF ∧ ((withRegs [(0, 255), (1, 1)]).reg 0).toNat + ((withRegs [(0, 255), (1, 1)]).reg 1).toNat > 255 ∧
    ¬ ((withRegs [(0, 255)]).reg 0).toNat + ((withRegs [(0, 255)]).reg 1).toNat > 255 ∧
    ((withRegs [(0, 7), (1, 7)]).reg 0).toNat ≥ ((withRegs [(0, 7), (1, 7)]).reg 1).toNat := by decide

theorem witness_OnlyFlagWritersTouchVF :
    (∃ t, exec (.ldImm 14 7) State.reset = .next t ∧ namesVF (.ldImm 14 7) = false ∧ flagWriter (.ldImm 14 7) = false) ∧
    ∃ t, exec (.drw 0 1 15) (State.reset.setI 4081) = .next t ∧ namesVF (.drw 0 1 15) = false ∧
      flagWriter (.drw 0 1 15) = true ∧ ¬ FaultCondition (.drw 0 1 15) (State.reset.setI 4081) := by
  obtain ⟨t, ht, _⟩ := next_of_after (by decide : after (exec (.ldImm 14 7) State.reset) (fun _ => true) = true)
  obtain ⟨u, hu, _⟩ := next_of_after (by decide : after (exec (.drw 0 1 15) (State.reset.setI 4081)) (fun _ => true) = true)
  exact ⟨⟨t, ht, rfl, rfl⟩, ⟨u, hu, rfl, rfl, by unfold FaultCondition; decide⟩⟩

theorem witness_BcdStoresThreeDigits :
    (State.reset.setI 4093).mem.wf = true ∧ (State.reset.setI 4093).i.toNat + 2 ≤ 4095 ∧
    (4092 < 4093 ∨ 4093 + 2 < 4092) ∧ 4095 < (State.reset.setI 4094).i.toNat + 2 := by decide

theorem witness_StoreRegistersAdvancesIndex :
    (State.reset.setI 4080).mem.wf = true ∧ (State.reset.setI 4080).i.toNat + (15 : Reg).val ≤ 4095 ∧
    4095 < (State.reset.setI 4081).i.toNat + (15 : Reg).val ∧ 4095 < (State.reset.setI 4096).i.toNat + (0 : Reg).val := by decide

theorem witness_LoadRegistersAdvancesIndex :
    (State.reset.setI 4095).i.toNat + (0 : Reg).val ≤ 4095 ∧ (0 : Reg).val < (1 : Reg).val ∧
    4095 < (State.reset.setI 4096).i.toNat + (0 : Reg).val ∧ 4095 < (State.reset.setI 0xFFFF).i.toNat + (15 : Reg).val := by decide

/-- With `u` the stored state whose `I` is set back. -/
theorem witness_StoreThenLoadGivesRegistersBack :
    ∃ t : State, (State.reset.setI 4080).mem.wf = true ∧ (State.reset.setI 4080).i.toNat + (15 : Reg).val ≤ 4095 ∧
      exec (.stRegs 15) (State.reset.setI 4080) = .next t ∧ (t.setI 4080).i = (State.reset.setI 4080).i ∧
      (t.setI 4080).mem = t.mem := by
  obtain ⟨t, ht, _⟩ := next_of_after (by decide : after (exec (.stRegs 15) (State.reset.setI 4080)) (fun _ => true) = true)
  exact ⟨t, by decide, by decide, ht, rfl, rfl⟩

theorem witness_EachCellHasItsWriters :
    ∃ t, exec (.stRegs 15) (State.reset.setI 4080) = .next t := by
  obtain ⟨t, ht, _⟩ := next_of_after (by decide : after (exec (.stRegs 15) (State.reset.setI 4080)) (fun _ => true) = true)
  exact ⟨t, ht⟩

/-- The state of row DS7 with `I` at the last byte of memory: the sprite `0xC0` at (0, 0), where (1, 0) is lit. -/
def drawState : State := withLit [(1, 0)] (withBytes 4095 [0xC0] (State.reset.setI 4095))

theorem witness_DrawTogglesTheSprite :
    ((15 : Height).val = 0 ∨ (State.reset.setI 4081).i.toNat + (15 : Height).val - 1 ≤ 4095) ∧
    ((1 : Height).val = 0 ∨ drawState.i.toNat + (1 : Height).val - 1 ≤ 4095) ∧ SpriteCovers drawState 0 0 1 (0, 0) ∧
    (∃ t, exec (.drw 0 0 1) drawState = .next t ∧ ∃ p, litAt drawState.fb p = true ∧ litAt t.fb p = false) ∧
    ∃ t, exec (.drw 0 0 0) drawState = .next t ∧ ∀ p, litAt drawState.fb p = true → litAt t.fb p = true := by
  obtain ⟨t, ht, hp⟩ := next_of_after (by decide : after (exec (.drw 0 0 1) drawState) (fun t => litAt t.fb (1, 0) == false) = true)
  exact ⟨by decide, by decide, ⟨0, 0, by decide⟩, ⟨t, ht, (1, 0), by decide, by simpa using hp⟩, _, rfl, fun _ h => h⟩

theorem witness_DrawOutsideMemoryFaults :
    0 < (15 : Height).val ∧ 4095 < (State.reset.setI 4082).i.toNat + (15 : Height).val - 1 ∧
    4095 < (State.reset.setI 4096).i.toNat + (1 : Height).val - 1 := by decide

theorem witness_DrawingTwiceErases :
    ∃ s t u : State, (0 : Reg) ≠ VF ∧ ((1 : Height).val = 0 ∨ s.i.toNat + (1 : Height).val - 1 ≤ 4095) ∧
      exec (.drw 0 0 1) s = .next t ∧ exec (.drw 0 0 1) t = .next u ∧ t.reg VF = 0 ∧ ∃ p, SpriteCovers s 0 0 1 p := by
  let s := withBytes 4095 [0xC0] (State.reset.setI 4095)
  obtain ⟨t, ht, hp⟩ := next_of_after (by decide : after (exec (.drw 0 0 1) s)
    (fun t => t.reg VF == 0 && after (exec (.drw 0 0 1) t) (fun _ => true)) = true)
  simp only [Bool.and_eq_true, beq_iff_eq] at hp
  obtain ⟨u, hu, _⟩ := next_of_after hp.2
  exact ⟨s, t, u, by decide, by decide, ht, hu, hp.1, (0, 0), 0, 0, by decide⟩

theorem witness_KeySkipsCompareTheLatch :
    (State.reset.setKey (some 0)).key = some ((State.reset.setKey (some 0)).reg 2) ∧
    State.reset.key ≠ some (State.reset.reg 2) := by decide

theorem witness_KeyWaitCompletesOrSuspends :
    (State.reset.setKey (some 0)).key = some 0 ∧ State.reset.key = none := by decide

theorem witness_OnlyKeyWaitSuspends :
    ∃ t, step (atPc 0xF20A State.reset) = .next t ∧ (atPc 0xF20A State.reset).run = .running ∧ t.run = .awaitKey := by
  obtain ⟨t, ht, hp⟩ := next_of_after (by decide : after (step (atPc 0xF20A State.reset)) (fun t => t.run == .awaitKey) = true)
  exact ⟨t, ht, by decide, by simpa using hp⟩

/-- The largest program, and one a byte shorter, which leaves the last address as a zero above it. -/
theorem witness_InitializeLoadsTheProgram :
    (List.replicate 3584 (0xAA : Byte)).length ≤ 3584 ∧ 3583 < (List.replicate 3584 (0xAA : Byte)).length ∧
    79 < 80 ∧ (80 ≤ 511 ∧ 511 < 512) ∧
    (List.replicate 3583 (0xAA : Byte)).length ≤ 3584 ∧ 512 + (List.replicate 3583 (0xAA : Byte)).length ≤ 4095 ∧ 4095 < 4096 := by
  simp only [List.length_replicate]
  decide

theorem witness_InitializeRejectsALongProgram :
    3584 < (List.replicate 3585 (0xAA : Byte)).length ∧ 79 < 80 ∧ 80 ≤ 4095 ∧ 4095 < 4096 := by
  rw [List.length_replicate]
  decide

theorem witness_StepKeepsTheInvariant :
    ∃ t, Inv (atPc 0x2300 State.reset) ∧ step (atPc 0x2300 State.reset) = .next t := by
  obtain ⟨t, ht, _⟩ := next_of_after (by decide : after (step (atPc 0x2300 State.reset)) (fun _ => true) = true)
  exact ⟨t, inv_atPc rfl (by decide), ht⟩

set_option maxRecDepth 4000 in
theorem witness_EveryScheduleKeepsTheInvariant :
    ∃ t, Inv (atPc 0xF20A State.reset) ∧
      runSchedule otherFont [.step, .tickTimers, .step, .setKey (some 7), .step, .ackFrame, .initializeWith [0x12, 0x00], .step]
        (atPc 0xF20A State.reset) = .next t := by
  obtain ⟨t, ht, _⟩ := next_of_after (by decide : after (runSchedule otherFont [.step, .tickTimers, .step, .setKey (some 7), .step,
    .ackFrame, .initializeWith [0x12, 0x00], .step] (atPc 0xF20A State.reset)) (fun _ => true) = true)
  exact ⟨t, inv_atPc rfl (by decide), ht⟩

theorem witness_HostOnlyCellsDoNotReachTheProgram :
    ∃ t t' : State, State.reset.mem.wf = true ∧ (State.reset.setSound 5).mem.wf = true ∧
      SameExcept [.sound, .fbDirty, .faultCause, .faultInfo, .diags] State.reset (State.reset.setSound 5) ∧
      State.reset.sound ≠ (State.reset.setSound 5).sound ∧
      step State.reset = .next t ∧ step (State.reset.setSound 5) = .next t' := by
  obtain ⟨t, ht, _⟩ := next_of_after (by decide : after (step State.reset) (fun _ => true) = true)
  obtain ⟨u, hu, _⟩ := next_of_after (by decide : after (step (State.reset.setSound 5)) (fun _ => true) = true)
  refine ⟨t, u, by decide, by decide, ?_, by decide, ht, hu⟩
  intro f hf
  cases f <;> first | rfl | exact fun _ => rfl | exact absurd (by decide) hf

/-- The last glyph, of a font that is not the default. -/
theorem witness_GlyphLookupFindsTheFont :
    ∃ t : State, ([] : List Byte).length ≤ 3584 ∧ t.mem = (initializeWith otherFont [] State.reset).mem ∧
      (t.reg 15).toNat = 15 ∧ 15 < 16 := by
  have h : ∀ s : State, (s.setReg 15 15).mem = s.mem ∧ ((s.setReg 15 15).reg 15).toNat = 15 :=
    fun _ => ⟨rfl, by simp [State.setReg, State.reg, State.setV]⟩
  exact ⟨_, by decide, (h _).1, (h _).2, by decide⟩

end Sys2Proof.Tests
end

/-! PROOFS. The statements of 10_state.md: the machine invariant, who writes which cell, what the host alone reads. -/

namespace Sys2Proof.Machine

/-! ### The instructions that can fault, and the key wait, as one equation each -/

theorem exec_ret_eq (s : State) : exec .ret s = .next
    (if h : 0 < s.sp.val then (s.setSp ⟨s.sp.val - 1, by omega⟩).setPc ((s.stack[s.sp.val - 1]'(by omega)) + 2)
      else s.raise .stackUnderflow ⟨s.pc, 0x00EE, 0⟩) := by
  by_cases h : 0 < s.sp.val <;> simp only [exec_ret, execRet, State.pop, h, dite_true, dite_false]

theorem exec_call_eq (nnn : Addr) (s : State) : exec (.call nnn) s = .next
    (if h : s.sp.val < 16 then
        ((s.setStack (s.stack.set s.sp.val s.pc h)).setSp ⟨s.sp.val + 1, by omega⟩).setPc (zextAddr nnn)
      else s.raise .stackOverflow ⟨s.pc, s.ir, 0⟩) := by
  by_cases h : s.sp.val < 16 <;> simp only [exec_call, execCall, State.push, h, dite_true, dite_false]

theorem exec_drw_eq (x y : Reg) (n : Height) (s : State) : exec (.drw x y n) s = .next
    (if inSpace s.base n.val then (s.drawRows (s.reg x) (s.reg y) (s.mem.readBytes s.base n.val)).stepPc
      else s.raiseData) := by
  by_cases h : inSpace s.base n.val = true <;>
    simp only [exec_drw, execDrw, State.loadBlock, h, if_true, if_false, Bool.false_eq_true]

theorem exec_ldB_eq (x : Reg) (s : State) : exec (.ldB x) s = .next
    (if inSpace s.base (bcdDigits (s.reg x)).length then
        (s.setMem (s.mem.writeBytes s.base (bcdDigits (s.reg x)))).stepPc
      else s.raiseData) := by
  by_cases h : inSpace s.base (bcdDigits (s.reg x)).length = true <;>
    simp only [exec_ldB, execLdB, State.storeBlock, h, if_true, if_false, Bool.false_eq_true]

theorem exec_stRegs_eq (x : Reg) (s : State) : exec (.stRegs x) s = .next
    (if inSpace s.base (s.regsUpTo x).length then
        ((s.setMem (s.mem.writeBytes s.base (s.regsUpTo x))).advanceIndex x).stepPc
      else s.raiseData) := by
  by_cases h : inSpace s.base (s.regsUpTo x).length = true <;>
    simp only [exec_stRegs, execStRegs, State.storeBlock, h, if_true, if_false, Bool.false_eq_true]

theorem exec_ldRegs_eq (x : Reg) (s : State) : exec (.ldRegs x) s = .next
    (if inSpace s.base (regCount x) then
        ((s.loadRegs (s.mem.readBytes s.base (regCount x))).advanceIndex x).stepPc
      else s.raiseData) := by
  by_cases h : inSpace s.base (regCount x) = true <;>
    simp only [exec_ldRegs, execLdRegs, State.loadBlock, h, if_true, if_false, Bool.false_eq_true]

theorem waitForKey_of_none {s : State} (h : s.key = none) (x : Reg) : waitForKey x s = s.setRun .awaitKey := by
  simp [waitForKey, h]

theorem waitForKey_of_some {s : State} {k : Byte} (h : s.key = some k) (x : Reg) :
    waitForKey x s = ((s.setReg x k).stepPc).setRun .running := by
  simp [waitForKey, h]

/-! ### What a step can do (R80 to R87) -/

theorem step_of_fetch_none {s : State} (hr : s.run = .running) (hf : s.fetch = none) :
    step s = .next s.raiseFetch := by
  simp only [step_running hr, hf]

theorem step_of_decode_error {s : State} {w : Word} {r : DecodeReject} (hr : s.run = .running)
    (hf : s.fetch = some w) (hd : decode w = .error r) :
    step s = .next ((s.setIr w).emit ⟨.unknownOpcode, s.pc, w⟩).stepPc := by
  simp only [step_running hr, hf, hd]
  rfl

theorem step_of_decode_ok {s : State} {w : Word} {i : Instr} (hr : s.run = .running) (hf : s.fetch = some w)
    (hd : decode w = .ok i) : step s = exec i (s.setIr w) := by
  simp only [step_running hr, hf, hd]

/-- The ways a step takes `s` to `t`, one for each branch of the rules R81 to R87. -/
inductive StepCase (s t : State) : Prop where
  | stopped (hr : s.run = .faulted) (ht : t = s)
  | resumed (hr : s.run = .awaitKey) (ht : t = waitForKey (xField s.ir) s)
  | fetchFault (hr : s.run = .running) (hf : s.fetch = none) (ht : t = s.raiseFetch)
  | undefined (w : Word) (r : DecodeReject) (hr : s.run = .running) (hf : s.fetch = some w) (hd : decode w = .error r)
      (ht : t = ((s.setIr w).emit ⟨.unknownOpcode, s.pc, w⟩).stepPc)
  | executed (w : Word) (i : Instr) (hr : s.run = .running) (hf : s.fetch = some w) (hd : decode w = .ok i)
      (ht : exec i (s.setIr w) = .next t)

theorem step_cases {s t : State} (h : step s = .next t) : StepCase s t := by
  cases hr : s.run with
  | faulted =>
    rw [step_faulted hr] at h
    cases h
    exact .stopped hr rfl
  | awaitKey =>
    rw [step_awaitKey hr] at h
    cases h
    exact .resumed hr rfl
  | running =>
    cases hf : s.fetch with
    | none =>
      rw [step_of_fetch_none hr hf] at h
      cases h
      exact .fetchFault hr hf rfl
    | some w =>
      cases hd : decode w with
      | ok i => exact .executed w i hr hf hd (step_of_decode_ok hr hf hd ▸ h)
      | error r =>
        rw [step_of_decode_error hr hf hd] at h
        cases h
        exact .undefined w r hr hf hd rfl

/-- A fetch depends on `pc` and memory alone. -/
theorem State.fetch_congr {s t : State} (hpc : t.pc = s.pc) (hmem : t.mem = s.mem) : t.fetch = s.fetch := by
  simp only [State.fetch, hpc, hmem]

/-- What is fetched lies inside the address space (R81). -/
theorem State.pc_le_of_fetch {s : State} {w : Word} (h : s.fetch = some w) : s.pc.toNat ≤ 4094 := by
  have := (s.fetch_eq_some.1 h).1
  omega

/-! ### Ways to meet the invariant -/

/-- The invariant reads no other cells than these. -/
theorem Inv.congr {s t : State} (hi : Inv s) (hmem : t.mem = s.mem) (hpc : t.pc = s.pc) (hstack : t.stack = s.stack)
    (hsp : t.sp = s.sp) (hrun : t.run = s.run) (hcause : t.faultCause = s.faultCause)
    (hinfo : t.faultInfo = s.faultInfo) (hir : t.ir = s.ir) : Inv t := by
  obtain ⟨h1, h2, h3, h4, h5, h6, h7, h8, h9, h10⟩ := hi
  rw [← State.fetch_congr hpc hmem] at h10
  constructor <;> simpa only [hmem, hpc, hstack, hsp, hrun, hcause, hinfo, hir]

/-- A core without a fault has no cause and an empty record (R23). -/
theorem Inv.fault_cells_empty {s : State} (hi : Inv s) (hr : s.run ≠ .faulted) :
    s.faultCause = .none ∧ s.faultInfo = ⟨0, 0, 0⟩ :=
  ⟨not_not.1 fun hc => hr (hi.faultedIffCause.2 hc), hi.recordEmpty hr⟩

/-- A core that has not stopped meets the invariant when its fault cells are empty: all clauses on faults are void. -/
theorem Inv.of_not_faulted {t : State} (hr : t.run ≠ .faulted) (hcause : t.faultCause = .none)
    (hinfo : t.faultInfo = ⟨0, 0, 0⟩) (hmem : t.mem.wf = true) (hpc : t.pc.toNat ≤ 0x10FE)
    (hslots : ∀ k : Fin 16, k.val < t.sp.val → (t.stack[k]).toNat ≤ 4094)
    (hkey : t.run = .awaitKey → t.fetch = some t.ir ∧ ∃ x, decode t.ir = .ok (.ldVxK x)) : Inv t where
  memWf := hmem
  pcBound := hpc
  slotsFetchable := hslots
  faultedIffCause := by simp [hr, hcause]
  recordEmpty := fun _ => hinfo
  faultPrecise := fun h => absurd h hr
  overflowFull := by simp [hcause]
  underflowEmpty := by simp [hcause]
  fetchOutside := by simp [hcause]
  awaitsKey := hkey

/-- A machine fault keeps the invariant when its cause is one and its record is precise (R151, R152). -/
theorem Inv.raise {s : State} (hi : Inv s) {c : FaultCause} {n : FaultInfo} (hc : c ≠ .none)
    (hpc : c ≠ .loadTooLarge → n.faultPc = s.pc) (hfull : c = .stackOverflow → s.sp = 16)
    (hempty : c = .stackUnderflow → s.sp = 0) (hfetch : c = .memBoundsFetch → 4095 < s.pc.toNat + 1) :
    Inv (s.raise c n) where
  memWf := hi.memWf
  pcBound := hi.pcBound
  slotsFetchable := hi.slotsFetchable
  faultedIffCause := by simp [hc]
  recordEmpty := fun h => absurd rfl h
  faultPrecise := fun _ => hpc
  overflowFull := hfull
  underflowEmpty := hempty
  fetchOutside := hfetch
  awaitsKey := fun h => nomatch h

/-! ### The bound on `pc` (R14) -/

theorem advance_pc_le {a k : Word} (ha : a.toNat ≤ 4094) (hk : k.toNat ≤ 4) : (a + k).toNat ≤ 0x10FE := by
  rw [BitVec.toNat_add]
  omega

theorem skip_pc_le {a : Word} (ha : a.toNat ≤ 4094) (c : Bool) : (a + if c then 4 else 2).toNat ≤ 0x10FE :=
  advance_pc_le ha (by cases c <;> decide)

/-- From a fetchable `pc` and fetchable slots no instruction takes `pc` above `0xFFF + 0xFF` (R14, R88). -/
theorem exec_pc_le {i : Instr} {s t : State} (h : exec i s = .next t) (hpc : s.pc.toNat ≤ 4094)
    (hslots : ∀ k : Fin 16, k.val < s.sp.val → (s.stack[k]).toNat ≤ 4094) : t.pc.toNat ≤ 0x10FE := by
  have hnext : (s.pc + 2).toNat ≤ 0x10FE := advance_pc_le hpc (by decide)
  have hstay : s.pc.toNat ≤ 0x10FE := by omega
  cases i
  case ret =>
    rw [exec_ret_eq] at h
    cases h
    split
    · next hsp => exact advance_pc_le (hslots ⟨s.sp.val - 1, by omega⟩ (by simp; omega)) (by decide)
    · exact hstay
  case call nnn =>
    rw [exec_call_eq] at h
    cases h
    split
    · simp only [State.setPc_pc, zextAddr_toNat]
      omega
    · exact hstay
  case jp nnn =>
    cases h
    simp only [State.setPc_pc, zextAddr_toNat]
    omega
  case jpV0 nnn =>
    cases h
    simp only [State.setPc_pc, BitVec.toNat_add, zextByte_toNat, zextAddr_toNat]
    omega
  case seImm | sneImm | seReg | sneReg | skp | sknp => cases h; exact skip_pc_le hpc _
  case ldVxK x =>
    cases h
    cases hk : s.key with
    | none => rw [waitForKey_of_none hk]; exact hstay
    | some k => rw [waitForKey_of_some hk]; exact hnext
  case drw | ldB | stRegs | ldRegs =>
    simp only [exec_drw_eq, exec_ldB_eq, exec_stRegs_eq, exec_ldRegs_eq] at h
    cases h
    split
    · exact hnext
    · exact hstay
  all_goals cases h; exact hnext

/-! ### Every step keeps the invariant -/

/-- A resumed `Fx0A` either still waits or completes and goes on behind itself (R86). -/
theorem Inv.resumed {s : State} (hi : Inv s) (hr : s.run = .awaitKey) (x : Reg) : Inv (waitForKey x s) := by
  cases hk : s.key with
  | none =>
    rw [waitForKey_of_none hk]
    exact hi.congr rfl rfl rfl rfl hr.symm rfl rfl rfl
  | some k =>
    rw [waitForKey_of_some hk]
    obtain ⟨hcause, hinfo⟩ := hi.fault_cells_empty (by simp [hr])
    have hpc := State.pc_le_of_fetch (hi.awaitsKey hr).1
    exact .of_not_faulted (by simp) (by simpa) (by simpa) (by simpa using hi.memWf)
      (advance_pc_le hpc (by decide)) hi.slotsFetchable (by simp)

/-- The word just fetched in `ir` leaves a running core's invariant as it was. -/
theorem Inv.setIr {s : State} (hi : Inv s) (hr : s.run = .running) (w : Word) : Inv (s.setIr w) := by
  obtain ⟨hcause, hinfo⟩ := hi.fault_cells_empty (by simp [hr])
  exact .of_not_faulted (by simp [hr]) hcause hinfo hi.memWf hi.pcBound hi.slotsFetchable (by simp [hr])

/-- Executing the instruction that `pc` addresses keeps the invariant. -/
theorem Inv.exec {s t : State} {i : Instr} (hi : Inv s) (hr : s.run = .running) (hf : s.fetch = some s.ir)
    (hd : decode s.ir = .ok i) (h : exec i s = .next t) : Inv t := by
  have hr' : s.run ≠ .faulted := by simp [hr]
  have hpc := State.pc_le_of_fetch hf
  by_cases ht : t.run = .faulted
  · obtain ⟨c, w, a, rfl, hnone, -, hfetch, -, hfull, hempty⟩ := exec_stops h hr' ht
    exact hi.raise hnone (fun _ => rfl) hfull hempty (fun hc => absurd hc hfetch)
  · obtain ⟨hcause, hinfo⟩ := hi.fault_cells_empty hr'
    obtain ⟨hmem, hcause', hinfo', hkey, hslot⟩ := exec_runs h hr hi.memWf ht
    refine .of_not_faulted ht (hcause'.trans hcause) (hinfo'.trans hinfo) hmem
      (exec_pc_le h hpc hi.slotsFetchable) (fun k hk => ?_) (fun hw => ?_)
    · obtain ⟨e, hk'⟩ | e := hslot k hk
      · exact e ▸ hi.slotsFetchable k hk'
      · exact e ▸ hpc
    · obtain ⟨epc, emem, eir, x, rfl⟩ := hkey hw
      exact ⟨by rw [State.fetch_congr epc emem, hf, eir], x, by rw [eir, hd]⟩

/-- Settles O57: the invariant is kept by each branch of the step. -/
theorem stepKeepsTheInvariant : Obligations.StepKeepsTheInvariant := by
  intro s t hi h
  cases step_cases h with
  | stopped _ ht => exact ht ▸ hi
  | resumed hr ht => exact ht ▸ hi.resumed hr _
  | fetchFault _ hf ht =>
    rw [ht]
    exact hi.raise (by simp) (fun _ => rfl) nofun nofun (fun _ => s.fetch_eq_none.1 hf)
  | undefined w _ hr hf _ ht =>
    obtain ⟨hcause, hinfo⟩ := hi.fault_cells_empty (by simp [hr])
    rw [ht]
    exact .of_not_faulted (by simp [hr]) hcause hinfo hi.memWf (advance_pc_le (State.pc_le_of_fetch hf) (by decide))
      hi.slotsFetchable (by simp [hr])
  | executed w i hr hf hd ht => exact (hi.setIr hr w).exec hr hf hd ht

/-! ### The host's transactions keep the invariant (R28 to R30) -/

/-- The cells after a reset meet the invariant, whatever canonical memory stands beside them. -/
theorem Inv.reset_setMem {m : Memory} (hm : m.wf = true) : Inv (State.reset.setMem m) :=
  .of_not_faulted nofun rfl rfl hm (by decide : (0x200 : Word).toNat ≤ 0x10FE)
    (fun k hk => absurd hk (Nat.not_lt_zero k.val)) nofun

theorem Inv.resetWith (font : Font) : Inv (State.resetWith font) := .reset_setMem (State.resetWith_mem_wf font)

theorem Inv.resetCells (font : Font) (s : State) : Inv (s.resetCells font) :=
  (Inv.resetWith font).congr rfl rfl rfl rfl rfl rfl rfl rfl

/-- A load starts from the reset cells alone, so it meets the invariant from every state (R180, R182). -/
theorem Inv.initializeWith (font : Font) (p : List Byte) (s : State) : Inv (initializeWith font p s) := by
  unfold Machine.initializeWith
  split
  · exact (Inv.resetCells font s).raise nofun (absurd rfl) nofun nofun nofun
  · next hlen =>
    have hfits : inSpace Config.progBase p.length = true := by
      simp only [Config.maxProg_eq] at hlen
      simp only [Config.progBase_eq, inSpace_iff]
      omega
    exact (Inv.reset_setMem (Memory.wf_writeBytes (Inv.resetCells font s).memWf hfits)).congr
      rfl rfl rfl rfl rfl rfl rfl rfl

theorem Inv.transact {font : Font} {a : Transaction} {s t : State} (hi : Inv s) (h : transact font a s = .next t) :
    Inv t := by
  cases a with
  | step => exact stepKeepsTheInvariant s t hi h
  | initializeWith p => cases h; exact .initializeWith font p s
  | tickTimers => cases h; exact hi.congr rfl rfl rfl rfl rfl rfl rfl rfl
  | setKey k => cases h; exact hi.congr rfl rfl rfl rfl rfl rfl rfl rfl
  | ackFrame => cases h; exact hi.congr rfl rfl rfl rfl rfl rfl rfl rfl

/-- A schedule that answers a next state has answered one after its first transaction. -/
theorem runSchedule_cons {font : Font} {a : Transaction} {as : List Transaction} {s t : State}
    (h : runSchedule font (a :: as) s = .next t) :
    ∃ u, transact font a s = .next u ∧ runSchedule font as u = .next t := by
  rw [runSchedule] at h
  split at h
  · next u hu => exact ⟨u, hu, h⟩
  · cases h
  · cases h

/-- Settles O58, by induction on the schedule. -/
theorem everyScheduleKeepsTheInvariant : Obligations.EveryScheduleKeepsTheInvariant := by
  intro font as
  induction as with
  | nil => intro s t hi h; cases h; exact hi
  | cons a as ih =>
    intro s t hi h
    obtain ⟨u, hu, ht⟩ := runSchedule_cons h
    exact ih u t (hi.transact hu) ht

/-- Settles O56: both reset states are the reset cells beside a canonical memory. -/
theorem invariantHoldsAtReset : Obligations.InvariantHoldsAtReset :=
  ⟨.reset_setMem Memory.wf_nil, .resetWith⟩

/-! ### The reset state (R26, R180) -/

/-- The default font is what memory reads where it lists nothing, so its reset lists nothing (log entry 1). -/
theorem resetWith_defaultFont : State.resetWith defaultFont = State.reset := by
  have hmem : (State.resetWith defaultFont).mem = [] :=
    Memory.eq_of_read_eq (State.resetWith_mem_wf _) Memory.wf_nil fun a => by
      by_cases ha : a < 80
      · rw [State.resetWith_read_font _ ha]
        simp [defaultFont, Memory.read, Memory.resetByte, ha]
      · rw [State.resetWith_read_above _ (by omega)]
        exact (Memory.resetByte_above (by omega)).symm
  exact congrArg State.reset.setMem hmem

theorem resetCells_reset : ResetCells State.reset :=
  ⟨by decide, rfl, rfl, rfl, by decide, rfl, rfl, litAt_clearFb, rfl, rfl, rfl, rfl⟩

/-- Settles O55: the cells one by one, and memory as the reads of `resetWith` give it. -/
theorem resetStateIsAsSpecified : Obligations.ResetStateIsAsSpecified := by
  refine ⟨resetCells_reset, rfl, rfl, fun a ha => ?_, fun a ha _ => Memory.resetByte_above ha, resetWith_defaultFont,
    fun font => rfl⟩
  rw [← resetWith_defaultFont]
  exact State.resetWith_read_font defaultFont ha

/-! ### Who writes which cell (R10) -/

/-- Settles O40, instruction by instruction: one that can fault in its two outcomes, the key wait with and without a
key, every other by the frame of its one write. -/
theorem eachCellHasItsWriters : Obligations.EachCellHasItsWriters := by
  intro i s t h
  cases i
  case ret | call | drw | ldB | stRegs | ldRegs =>
    simp only [exec_ret_eq, exec_call_eq, exec_drw_eq, exec_ldB_eq, exec_stRegs_eq, exec_ldRegs_eq] at h
    cases h
    split
    · exact sameExcept_iff.2 (by simp [mayWrite])
    · exact sameExcept_iff.2 (by simp [mayWrite])
  case ldVxK x =>
    cases h
    cases hk : s.key with
    | none => rw [waitForKey_of_none hk]; exact sameExcept_iff.2 (by simp [mayWrite])
    | some k => rw [waitForKey_of_some hk]; exact sameExcept_iff.2 (by simp [mayWrite])
  all_goals cases h; exact sameExcept_iff.2 (by simp [mayWrite, rndWith])

/-! ### Only `Fx0A` suspends the core (R22, R147) -/

/-- An instruction keeps `run`, stops the core, or is the key wait. -/
theorem exec_run {i : Instr} {s t : State} (h : exec i s = .next t) :
    t.run = s.run ∨ t.run = .faulted ∨ ∃ x, i = .ldVxK x := by
  cases i
  case ret | call | drw | ldB | stRegs | ldRegs =>
    simp only [exec_ret_eq, exec_call_eq, exec_drw_eq, exec_ldB_eq, exec_stRegs_eq, exec_ldRegs_eq] at h
    cases h
    split
    · exact .inl (by simp)
    · exact .inr (.inl rfl)
  case ldVxK x => exact .inr (.inr ⟨x, rfl⟩)
  all_goals cases h; exact .inl rfl

/-- Settles O49: no other branch of the step, and no other instruction, ends in `AWAIT_KEY`. -/
theorem onlyKeyWaitSuspends : Obligations.OnlyKeyWaitSuspends := by
  intro s t h hrun ht
  cases step_cases h with
  | stopped hr => simp [hrun] at hr
  | resumed hr => simp [hrun] at hr
  | fetchFault _ _ e => rw [e] at ht; cases ht
  | undefined w _ _ _ _ e => simp [e, hrun] at ht
  | executed w i _ _ hd he =>
    obtain e | e | ⟨x, rfl⟩ := exec_run he
    · simp [ht, hrun] at e
    · simp [ht] at e
    · cases he
      cases hk : s.key with
      | none =>
        rw [waitForKey_of_none (by simpa using hk)]
        exact ⟨rfl, ⟨x, hd⟩, sameExcept_iff.2 (by simp)⟩
      | some k =>
        rw [waitForKey_of_some (s := s.setIr w) (k := k) (by simpa using hk)] at ht
        cases ht

/-! ### `VF` as a side effect (R12) -/

/-- Loading the registers up to `x` leaves `VF` unless `x` is 15 (R126). -/
theorem State.loadRegs_reg_VF (s : State) {bs : List Byte} (h : bs.length ≤ 15) :
    (s.loadRegs bs).reg VF = s.reg VF := by
  rw [State.loadRegs_reg, List.getElem?_eq_none (by simpa using h), Option.getD_none]

theorem State.drawRows_reg_VF (s : State) (x0 y0 : Byte) (bs : List Byte) :
    ∃ c, (s.drawRows x0 y0 bs).reg VF = flagByte c :=
  ⟨(blit s.fb (spritePixels x0 y0 0 bs)).2, by simp [State.drawRows]⟩

/-- With another destination the flag stays in `VF` (R100). -/
theorem State.writeFlagThenResult_reg_VF (s : State) {x : Reg} (h : x ≠ VF) (c : Bool) (b : Byte) :
    (s.writeFlagThenResult x c b).reg VF = flagByte c := by
  simp [State.writeFlagThenResult_reg, h]

/-- An instruction that neither names register 15 nor has `VF` as a side effect leaves it (R12). -/
theorem exec_keeps_VF {i : Instr} {s t : State} (h : exec i s = .next t) (hn : namesVF i = false)
    (hf : flagWriter i = false) : t.reg VF = s.reg VF := by
  cases i
  case addReg | sub | shr | subn | shl | drw => cases hf
  case ret | call | ldB | stRegs =>
    simp only [exec_ret_eq, exec_call_eq, exec_ldB_eq, exec_stRegs_eq] at h
    cases h
    split <;> rfl
  case ldRegs x =>
    have hx : x ≠ VF := by simpa [namesVF] using hn
    have hx' : x.val ≠ 15 := fun e => hx (Fin.ext e)
    rw [exec_ldRegs_eq] at h
    cases h
    split
    · exact s.loadRegs_reg_VF (by simp [regCount]; omega)
    · rfl
  case ldVxK x =>
    have hx : x ≠ VF := by simpa [namesVF] using hn
    cases h
    cases hk : s.key with
    | none => rw [waitForKey_of_none hk]; rfl
    | some k => rw [waitForKey_of_some hk]; exact s.setReg_reg_of_ne hx k
  case ldImm x _ | addImm x _ | ldReg x _ | orReg x _ | andReg x _ | xorReg x _ | rnd x _ | ldVxDt x =>
    have hx : x ≠ VF := by simpa [namesVF] using hn
    cases h
    exact State.setReg_reg_of_ne _ hx _
  all_goals cases h; rfl

/-- A flag writer that does not fault leaves a flag byte in `VF` (R12). -/
theorem exec_writes_flag {i : Instr} {s t : State} (h : exec i s = .next t) (hn : namesVF i = false)
    (hf : flagWriter i = true) (hc : ¬ FaultCondition i s) : ∃ c, t.reg VF = flagByte c := by
  cases i
  case addReg x _ | sub x _ | shr x _ | subn x _ | shl x _ =>
    have hx : x ≠ VF := by simpa [namesVF] using hn
    cases h
    exact ⟨_, s.writeFlagThenResult_reg_VF hx _ _⟩
  case drw x y n =>
    rw [exec_drw_eq] at h
    cases h
    split
    · exact s.drawRows_reg_VF _ _ _
    · next hs =>
      rw [inSpace_iff] at hs
      exact absurd ⟨by omega, by unfold State.base at hs; omega⟩ hc
  all_goals cases hf

/-- Settles O32: the two clauses, and that a flag byte is 0 or 1. -/
theorem onlyFlagWritersTouchVF : Obligations.OnlyFlagWritersTouchVF := by
  intro i s t h hn
  refine ⟨exec_keeps_VF h hn, fun hf hc => ?_⟩
  obtain ⟨c, e⟩ := exec_writes_flag h hn hf hc
  exact e ▸ flagByte_eq_zero_or_one c

/-! ### What only the host reads (R17, R23, R24, R153, R155) -/

/-- `s` with every cell that only the host reads blanked: what a program can depend on. -/
def State.blankHost (s : State) : State :=
  { s with sound := 0, fbDirty := false, faultCause := .none, faultInfo := ⟨0, 0, 0⟩, diags := [] }

/-- With canonical memories, to differ at most in the host's cells is to be equal once they are blanked. -/
theorem blankHost_eq_of_sameExcept {s s' : State} (hm : s.mem.wf = true) (hm' : s'.mem.wf = true)
    (h : SameExcept [.sound, .fbDirty, .faultCause, .faultInfo, .diags] s s') : s'.blankHost = s.blankHost := by
  have hmem : s'.mem = s.mem := Memory.eq_of_read_eq hm' hm (h .mem (by simp))
  rw [sameExcept_iff] at h
  cases s
  cases s'
  simp_all [State.blankHost]

theorem sameExcept_of_blankHost_eq {s s' : State} (h : s'.blankHost = s.blankHost) :
    SameExcept [.sound, .fbDirty, .faultCause, .faultInfo, .diags] s s' := by
  cases s
  cases s'
  simp only [State.blankHost, State.mk.injEq] at h
  refine sameExcept_iff.2 ?_
  simp [h]

@[simp] theorem State.blankHost_frame (s : State) :
    s.blankHost.v = s.v ∧ s.blankHost.i = s.i ∧ s.blankHost.pc = s.pc ∧ s.blankHost.stack = s.stack ∧
      s.blankHost.sp = s.sp ∧ s.blankHost.delay = s.delay ∧ s.blankHost.fb = s.fb ∧ s.blankHost.mem = s.mem ∧
      s.blankHost.key = s.key ∧ s.blankHost.ir = s.ir ∧ s.blankHost.run = s.run ∧ s.blankHost.draws = s.draws :=
  ⟨rfl, rfl, rfl, rfl, rfl, rfl, rfl, rfl, rfl, rfl, rfl, rfl⟩

@[simp] theorem State.blankHost_reg (s : State) (r : Reg) : s.blankHost.reg r = s.reg r := rfl
@[simp] theorem State.blankHost_base (s : State) : s.blankHost.base = s.base := rfl
@[simp] theorem State.blankHost_regsUpTo (s : State) (x : Reg) : s.blankHost.regsUpTo x = s.regsUpTo x := rfl

theorem waitForKey_blankHost (x : Reg) (s : State) :
    (waitForKey x s.blankHost).blankHost = (waitForKey x s).blankHost := by
  cases hk : s.key with
  | none => rw [waitForKey_of_none hk, waitForKey_of_none (by simpa using hk)]; rfl
  | some k => rw [waitForKey_of_some hk, waitForKey_of_some (k := k) (by simpa using hk)]; rfl

/-- An instruction does on the blanked state what it does on the state, but for the host's cells. -/
theorem exec_blankHost {i : Instr} {s t : State} (h : exec i s = .next t) :
    ∃ u, exec i s.blankHost = .next u ∧ u.blankHost = t.blankHost := by
  cases i
  case ret | call | drw | ldB | stRegs | ldRegs =>
    simp only [exec_ret_eq, exec_call_eq, exec_drw_eq, exec_ldB_eq, exec_stRegs_eq, exec_ldRegs_eq] at h ⊢
    cases h
    refine ⟨_, rfl, ?_⟩
    simp only [State.blankHost_frame, State.blankHost_reg, State.blankHost_base, State.blankHost_regsUpTo]
    split
    · rfl
    · rfl
  case ldVxK x =>
    cases h
    exact ⟨_, rfl, waitForKey_blankHost x s⟩
  all_goals cases h; exact ⟨_, rfl, rfl⟩

/-- A step does on the blanked state what it does on the state, but for the host's cells. -/
theorem step_blankHost {s t : State} (h : step s = .next t) :
    ∃ u, step s.blankHost = .next u ∧ u.blankHost = t.blankHost := by
  have hfetch : s.blankHost.fetch = s.fetch := State.fetch_congr rfl rfl
  cases step_cases h with
  | stopped hr ht => exact ⟨_, step_faulted hr, by rw [ht]; rfl⟩
  | resumed hr ht => exact ⟨_, step_awaitKey hr, by rw [ht]; exact waitForKey_blankHost _ s⟩
  | fetchFault hr hf ht => exact ⟨_, step_of_fetch_none hr (hfetch.trans hf), by rw [ht]; rfl⟩
  | undefined w r hr hf hd ht => exact ⟨_, step_of_decode_error hr (hfetch.trans hf) hd, by rw [ht]; rfl⟩
  | executed w i hr hf hd ht =>
    obtain ⟨u, hu, e⟩ := exec_blankHost ht
    exact ⟨u, (step_of_decode_ok (s := s.blankHost) hr (hfetch.trans hf) hd).trans hu, e⟩

/-- Settles O59: both steps are the step of the one blanked state. -/
theorem hostOnlyCellsDoNotReachTheProgram : Obligations.HostOnlyCellsDoNotReachTheProgram := by
  intro s s' t t' hm hm' hs h h'
  obtain ⟨u, hu, e⟩ := step_blankHost h
  obtain ⟨u', hu', e'⟩ := step_blankHost h'
  rw [blankHost_eq_of_sameExcept hm hm' hs, hu] at hu'
  cases hu'
  exact sameExcept_of_blankHost_eq (e'.symm.trans e)

end Sys2Proof.Machine

/-! PROOFS. The statements of 30_encoding.md: the decoder, the encoder and the opcode table agree. -/

namespace Sys2Proof

/-! ### The decoder reads back what the encoder writes (R62, R64) -/

theorem decode_encode (i : Instr) : decode (encode i) = .ok i := by
  cases i with
  | cls | ret => rfl
  | jp | call | ldI | jpV0 => simp [encode, decode]
  | seImm | sneImm | ldImm | addImm | rnd => simp [encode, decode]
  | seReg | sneReg | drw => simp [encode, decode, nField]
  | ldReg | orReg | andReg | xorReg | addReg | sub | shr | subn | shl => simp [encode, decode, decodeFamily8]
  | skp | sknp => simp [encode, decode, decodeFamilyE]
  | ldVxDt | ldVxK | ldDtVx | ldStVx | addI | ldF | ldB | stRegs | ldRegs => simp [encode, decode, decodeFamilyF]

theorem decodeBytes_encodeBytes (i : Instr) (rest : List Byte) :
    decodeBytes (encodeBytes i ++ rest) = .ok (i, rest) := by
  simp [encodeBytes, decodeBytes, decode_encode]

/-- Settles O2: the fields of an encoded word are the operands, and the two bytes of a word make it up again. -/
theorem decodeOfEncodeIsTheInstruction : Obligations.DecodeOfEncodeIsTheInstruction :=
  fun i rest => ⟨decode_encode i, decodeBytes_encodeBytes i rest⟩

/-! ### What the decoder answers (R64, R66) -/

theorem encodeNNN_of_op {w : Word} {op : BitVec 4} (hop : opField w = op) : encodeNNN op (nnnField w) = w :=
  hop ▸ encodeNNN_fields w

theorem encodeXNN_of_op {w : Word} {op : BitVec 4} (hop : opField w = op) :
    encodeXNN op (xField w) (nnField w) = w := hop ▸ encodeXNN_fields w

theorem encodeXNN_of_op_nn {w : Word} {op : BitVec 4} {nn : Byte} (hop : opField w = op) (hnn : nnField w = nn) :
    encodeXNN op (xField w) nn = w := hnn ▸ encodeXNN_of_op hop

theorem encodeXYN_of_op_sub {w : Word} {op n : BitVec 4} (hop : opField w = op) (hn : subField w = n) :
    encodeXYN op (xField w) (yField w) n = w := hop ▸ hn ▸ encodeXYN_fields w

/-- The undefined words of a family, by the fields of the word (R66). -/
def UndefinedIn (w : Word) : UndefinedFamily → Prop
  | .family0 => opField w = 0x0 ∧ w ≠ 0x00E0 ∧ w ≠ 0x00EE
  | .family5 => opField w = 0x5 ∧ subField w ≠ 0x0
  | .family8 => opField w = 0x8 ∧ subField w ∉ [0x0, 0x1, 0x2, 0x3, 0x4, 0x5, 0x6, 0x7, 0xE]
  | .family9 => opField w = 0x9 ∧ subField w ≠ 0x0
  | .familyE => opField w = 0xE ∧ nnField w ∉ [0x9E, 0xA1]
  | .familyF => opField w = 0xF ∧ nnField w ∉ [0x07, 0x0A, 0x15, 0x18, 0x1E, 0x29, 0x33, 0x55, 0x65]

/-- What the decoder can answer on a word: the instruction whose word it is, or the family it is an undefined word of. -/
inductive DecodeCases (w : Word) (a : Except DecodeReject Instr) : Prop
  | instr (i : Instr) (ha : a = .ok i) (henc : encode i = w)
  | undefined (f : UndefinedFamily) (ha : a = .error (.undefinedWord f)) (hu : UndefinedIn w f)

theorem decodeFamily0_cases {w : Word} (hop : opField w = 0x0) : DecodeCases w (decodeFamily0 w) := by
  unfold decodeFamily0
  split
  · next h => exact .instr _ rfl h.symm
  · next hcls =>
    split
    · next h => exact .instr _ rfl h.symm
    · next hret => exact .undefined _ rfl ⟨hop, hcls, hret⟩

theorem decodeFamily8_cases {w : Word} (hop : opField w = 0x8) : DecodeCases w (decodeFamily8 w) := by
  unfold decodeFamily8
  split
  case h_10 => exact .undefined _ rfl ⟨hop, by simp_all⟩
  all_goals next hn => exact .instr _ rfl (encodeXYN_of_op_sub hop hn)

theorem decodeFamilyE_cases {w : Word} (hop : opField w = 0xE) : DecodeCases w (decodeFamilyE w) := by
  unfold decodeFamilyE
  split
  case h_3 => exact .undefined _ rfl ⟨hop, by simp_all⟩
  all_goals next hnn => exact .instr _ rfl (encodeXNN_of_op_nn hop hnn)

theorem decodeFamilyF_cases {w : Word} (hop : opField w = 0xF) : DecodeCases w (decodeFamilyF w) := by
  unfold decodeFamilyF
  split
  case h_10 => exact .undefined _ rfl ⟨hop, by simp_all⟩
  all_goals next hnn => exact .instr _ rfl (encodeXNN_of_op_nn hop hnn)

/-- One case for each value of `op`, grouped by format; the arm without a value is `0xF`, the only one left (R64). -/
theorem decode_cases (w : Word) : DecodeCases w (decode w) := by
  unfold decode
  split
  case h_1 hop => exact decodeFamily0_cases hop
  case h_2 hop | h_3 hop | h_11 hop | h_12 hop => exact .instr _ rfl (encodeNNN_of_op hop)
  case h_4 hop | h_5 hop | h_7 hop | h_8 hop | h_13 hop => exact .instr _ rfl (encodeXNN_of_op hop)
  case h_6 hop | h_10 hop =>
    split
    · next hn => exact .instr _ rfl (encodeXYN_of_op_sub hop hn)
    · next hn => exact .undefined _ rfl ⟨hop, hn⟩
  case h_9 hop => exact decodeFamily8_cases hop
  case h_14 hop => exact .instr _ rfl (encodeXYN_of_op_sub hop rfl)
  case h_15 hop => exact decodeFamilyE_cases hop
  case h_16 => exact decodeFamilyF_cases (by simp only [imp_false] at *; bv_omega)

/-- Settles O3: the instruction that the decoder answers is one whose word it was given. -/
theorem encodeOfDecodeIsTheWord : Obligations.EncodeOfDecodeIsTheWord := by
  intro w i h
  cases decode_cases w with
  | instr j hd henc => cases h.symm.trans hd; exact henc
  | undefined f hd => cases h.symm.trans hd

/-! ### What a row of the opcode table selects (R65) -/

theorem selects_iff {r : OpRow} {w : Word} : r.selects w = true ↔ w &&& r.mask = r.value := beq_iff_eq

/-- The row of an instruction's mnemonic selects its word. -/
theorem ownRow (i : Instr) : Laws.OwnRow.Statement i := by
  cases i with
  | cls => exact Laws.OwnRow.cls
  | ret => exact Laws.OwnRow.ret
  | jp nnn => exact Laws.OwnRow.jp nnn
  | call nnn => exact Laws.OwnRow.call nnn
  | seImm x nn => exact Laws.OwnRow.seImm x nn
  | sneImm x nn => exact Laws.OwnRow.sneImm x nn
  | seReg x y => exact Laws.OwnRow.seReg x y
  | ldImm x nn => exact Laws.OwnRow.ldImm x nn
  | addImm x nn => exact Laws.OwnRow.addImm x nn
  | ldReg x y => exact Laws.OwnRow.ldReg x y
  | orReg x y => exact Laws.OwnRow.orReg x y
  | andReg x y => exact Laws.OwnRow.andReg x y
  | xorReg x y => exact Laws.OwnRow.xorReg x y
  | addReg x y => exact Laws.OwnRow.addReg x y
  | sub x y => exact Laws.OwnRow.sub x y
  | shr x y => exact Laws.OwnRow.shr x y
  | subn x y => exact Laws.OwnRow.subn x y
  | shl x y => exact Laws.OwnRow.shl x y
  | sneReg x y => exact Laws.OwnRow.sneReg x y
  | ldI nnn => exact Laws.OwnRow.ldI nnn
  | jpV0 nnn => exact Laws.OwnRow.jpV0 nnn
  | rnd x nn => exact Laws.OwnRow.rnd x nn
  | drw x y n => exact Laws.OwnRow.drw x y n
  | skp x => exact Laws.OwnRow.skp x
  | sknp x => exact Laws.OwnRow.sknp x
  | ldVxDt x => exact Laws.OwnRow.ldVxDt x
  | ldVxK x => exact Laws.OwnRow.ldVxK x
  | ldDtVx x => exact Laws.OwnRow.ldDtVx x
  | ldStVx x => exact Laws.OwnRow.ldStVx x
  | addI x => exact Laws.OwnRow.addI x
  | ldF x => exact Laws.OwnRow.ldF x
  | ldB x => exact Laws.OwnRow.ldB x
  | stRegs x => exact Laws.OwnRow.stRegs x
  | ldRegs x => exact Laws.OwnRow.ldRegs x

/-- Rows that select one word agree on the bits that both their masks keep. -/
theorem values_agree_of_selects {r r' : OpRow} {w : Word} (h : r.selects w = true) (h' : r'.selects w = true) :
    r.value &&& r'.mask = r'.value &&& r.mask := by
  rw [← selects_iff.1 h, ← selects_iff.1 h', BitVec.and_assoc, BitVec.and_assoc, BitVec.and_comm r.mask]

theorem opTable_disjoint : ∀ r ∈ opTable, ∀ r' ∈ opTable, r.value &&& r'.mask = r'.value &&& r.mask → r = r' := by
  decide

/-- Settles O5: two rows of the table differ in a bit that both masks keep. -/
theorem opcodeRowsDoNotOverlap : Obligations.OpcodeRowsDoNotOverlap :=
  fun _ r r' hr hr' h h' => opTable_disjoint r hr r' hr' (values_agree_of_selects h h')

/-- Where a row's mask keeps a whole field, the row's value has that field of every word it selects. -/
theorem extract_of_selects {r : OpRow} {w : Word} {k n : Nat} (h : r.selects w = true)
    (hm : r.mask.extractLsb' k n = .allOnes n) : r.value.extractLsb' k n = w.extractLsb' k n := by
  rw [← selects_iff.1 h, BitVec.extractLsb'_and, hm, BitVec.and_allOnes]

theorem opField_of_selects {r : OpRow} {w : Word} (h : r.selects w = true) (hm : opField r.mask = 0xF) :
    opField r.value = opField w := extract_of_selects h hm

theorem subField_of_selects {r : OpRow} {w : Word} (h : r.selects w = true) (hm : subField r.mask = 0xF) :
    subField r.value = subField w := extract_of_selects h hm

theorem nnField_of_selects {r : OpRow} {w : Word} (h : r.selects w = true) (hm : nnField r.mask = 0xFF) :
    nnField r.value = nnField w := extract_of_selects h hm

theorem opTable_mask_op : ∀ r ∈ opTable, opField r.mask = 0xF := by decide

theorem opTable_family0 : ∀ r ∈ opTable, opField r.value = 0x0 →
    r.mask = 0xFFFF ∧ (r.value = 0x00E0 ∨ r.value = 0x00EE) := by decide

theorem opTable_family5_family9 : ∀ r ∈ opTable, opField r.value = 0x5 ∨ opField r.value = 0x9 →
    subField r.mask = 0xF ∧ subField r.value = 0x0 := by decide

theorem opTable_family8 : ∀ r ∈ opTable, opField r.value = 0x8 →
    subField r.mask = 0xF ∧ subField r.value ∈ [0x0, 0x1, 0x2, 0x3, 0x4, 0x5, 0x6, 0x7, 0xE] := by decide

theorem opTable_familyE : ∀ r ∈ opTable, opField r.value = 0xE →
    nnField r.mask = 0xFF ∧ nnField r.value ∈ [0x9E, 0xA1] := by decide

theorem opTable_familyF : ∀ r ∈ opTable, opField r.value = 0xF →
    nnField r.mask = 0xFF ∧ nnField r.value ∈ [0x07, 0x0A, 0x15, 0x18, 0x1E, 0x29, 0x33, 0x55, 0x65] := by decide

/-- A row that selects a word is a row of the word's family, and has the sub-operation that the word has. -/
theorem not_undefinedIn_of_selects {r : OpRow} {w : Word} (hr : r ∈ opTable) (h : r.selects w = true)
    (f : UndefinedFamily) : ¬ UndefinedIn w f := by
  have hop : opField r.value = opField w := opField_of_selects h (opTable_mask_op r hr)
  cases f with
  | family0 =>
    rintro ⟨hw, hcls, hret⟩
    obtain ⟨hm, hv⟩ := opTable_family0 r hr (hop.trans hw)
    have hval : r.value = w := by rw [← selects_iff.1 h, hm, and_FFFF]
    exact hv.elim (hval ▸ hcls) (hval ▸ hret)
  | family5 =>
    rintro ⟨hw, hn⟩
    obtain ⟨hm, hv⟩ := opTable_family5_family9 r hr (.inl (hop.trans hw))
    exact hn (subField_of_selects h hm ▸ hv)
  | family8 =>
    rintro ⟨hw, hn⟩
    obtain ⟨hm, hv⟩ := opTable_family8 r hr (hop.trans hw)
    exact hn (subField_of_selects h hm ▸ hv)
  | family9 =>
    rintro ⟨hw, hn⟩
    obtain ⟨hm, hv⟩ := opTable_family5_family9 r hr (.inr (hop.trans hw))
    exact hn (subField_of_selects h hm ▸ hv)
  | familyE =>
    rintro ⟨hw, hnn⟩
    obtain ⟨hm, hv⟩ := opTable_familyE r hr (hop.trans hw)
    exact hnn (nnField_of_selects h hm ▸ hv)
  | familyF =>
    rintro ⟨hw, hnn⟩
    obtain ⟨hm, hv⟩ := opTable_familyF r hr (hop.trans hw)
    exact hnn (nnField_of_selects h hm ▸ hv)

theorem exists_row_of_decode {w : Word} {i : Instr} (h : decode w = .ok i) :
    ∃ r ∈ opTable, r.mnemonic = i.mnemonic ∧ r.selects w = true :=
  encodeOfDecodeIsTheWord w i h ▸ ownRow i

/-- Settles O4: a decoded word is the instruction's own, which its own row selects; a rejected word is undefined, and
no row selects it. -/
theorem decoderAgreesWithOpcodeTable : Obligations.DecoderAgreesWithOpcodeTable := by
  intro w
  refine ⟨fun i => exists_row_of_decode, fun ⟨r, hr, h⟩ => ?_, fun hnone => ?_⟩
  · cases decode_cases w with
    | instr i hd => exact ⟨i, hd⟩
    | undefined f _ hu => exact absurd hu (not_undefinedIn_of_selects hr h f)
  · cases decode_cases w with
    | instr i hd =>
      obtain ⟨r, hr, -, h⟩ := exists_row_of_decode hd
      simp [hnone r hr] at h
    | undefined f hd => exact ⟨f, hd⟩

/-! ### The list of undefined words (R66) -/

theorem opField_eq_iff {w : Word} {c : BitVec 4} : opField w = c ↔ w.toNat / 4096 = c.toNat := by
  rw [← BitVec.toNat_inj, opField, BitVec.extractLsb'_toNat, Nat.shiftRight_eq_div_pow]
  omega

theorem subField_eq_iff {w : Word} {c : BitVec 4} : subField w = c ↔ w.toNat % 16 = c.toNat := by
  rw [← BitVec.toNat_inj, subField, BitVec.extractLsb'_toNat, Nat.shiftRight_zero]

theorem nnField_eq_iff {w : Word} {c : Byte} : nnField w = c ↔ w.toNat % 256 = c.toNat := by
  rw [← BitVec.toNat_inj, nnField, BitVec.extractLsb'_toNat, Nat.shiftRight_zero]

theorem decode_eq_undefined_iff (w : Word) :
    (∃ f, decode w = .error (.undefinedWord f)) ↔ ∃ f, UndefinedIn w f := by
  cases decode_cases w with
  | instr i hd =>
    obtain ⟨r, hr, -, h⟩ := exists_row_of_decode hd
    simp [hd, not_undefinedIn_of_selects hr h]
  | undefined f hd hu => exact iff_of_true ⟨f, hd⟩ ⟨f, hu⟩

theorem exists_undefinedFamily_iff {p : UndefinedFamily → Prop} :
    (∃ f, p f) ↔ p .family0 ∨ p .family5 ∨ p .family8 ∨ p .family9 ∨ p .familyE ∨ p .familyF := by
  constructor
  · rintro ⟨f, h⟩
    cases f <;> simp [h]
  · rintro (h | h | h | h | h | h) <;> exact ⟨_, h⟩

/-- The seven low nibbles without an operation in family 8 are those the decoder does not list. -/
theorem subField_family8_iff (w : Word) : subField w ∉ [0x0, 0x1, 0x2, 0x3, 0x4, 0x5, 0x6, 0x7, 0xE] ↔
    w.toNat % 16 ∈ [8, 9, 0xA, 0xB, 0xC, 0xD, 0xF] := by
  simp only [subField_eq_iff, List.mem_cons, List.not_mem_nil, or_false, BitVec.reduceToNat]
  omega

/-- Settles O6: the fields of `UndefinedIn` are quotients and remainders of the word. -/
theorem undefinedWordsByFamily : Obligations.UndefinedWordsByFamily := by
  intro w
  have hne (c : Word) : w ≠ c ↔ w.toNat ≠ c.toNat := BitVec.toNat_inj.not.symm
  rw [decode_eq_undefined_iff, exists_undefinedFamily_iff]
  simp only [UndefinedIn, subField_family8_iff]
  simp [opField_eq_iff, subField_eq_iff, nnField_eq_iff, hne]

/-- Settles O1, by evaluation. -/
theorem decodeOfWrittenWords : Obligations.DecodeOfWrittenWords := by
  unfold Obligations.DecodeOfWrittenWords
  decide

end Sys2Proof

/-! PROOFS. The statements of 40_cycle.md: what one step does in each run state, and where `pc` goes. -/

namespace Sys2Proof.Machine

/-! ### The fetched word and exact sums on `pc` (R44, R81, R88) -/

theorem wordOfBytes_toNat (hi lo : Byte) : (wordOfBytes hi lo).toNat = hi.toNat * 256 + lo.toNat := by
  rw [wordOfBytes, BitVec.toNat_append, ← Nat.shiftLeft_add_eq_or_of_lt lo.isLt, Nat.shiftLeft_eq]

/-- The word fetched is the big-endian number of the two bytes at `pc` (R44, R81). -/
theorem State.fetch_eq_some_of_toNat {s : State} {w : Word} (hpc : s.pc.toNat + 1 ≤ 4095)
    (hw : w.toNat = (s.mem.read s.pc.toNat).toNat * 256 + (s.mem.read (s.pc.toNat + 1)).toNat) : s.fetch = some w :=
  s.fetch_eq_some.2 ⟨hpc, BitVec.eq_of_toNat_eq ((wordOfBytes_toNat _ _).trans hw.symm)⟩

/-- The next instruction's address does not wrap behind a fetchable `pc` (R88). -/
theorem State.stepPc_pc_toNat {s : State} (h : s.pc.toNat ≤ 4094) : s.stepPc.pc.toNat = s.pc.toNat + 2 := by
  simp only [State.stepPc_pc, BitVec.toNat_add, BitVec.reduceToNat]
  omega

/-- A skip does not wrap behind a fetchable `pc` (R89). -/
theorem State.skipIf_pc_toNat {s : State} (h : s.pc.toNat ≤ 4094) (c : Bool) :
    (s.skipIf c).pc.toNat = s.pc.toNat + if c then 4 else 2 := by
  have hk : (if c then 4 else 2 : Word).toNat = if c then 4 else 2 := by cases c <;> rfl
  rw [State.skipIf_pc, BitVec.toNat_add, hk]
  split <;> omega

/-- A skip on a condition that fails: the two distances change places (R89). -/
theorem State.skipIf_not_pc_toNat {s : State} (h : s.pc.toNat ≤ 4094) (c : Bool) :
    (s.skipIf (!c)).pc.toNat = s.pc.toNat + if c then 2 else 4 := by
  rw [State.skipIf_pc_toNat h]
  cases c <;> rfl

/-- The `x` field as a number (R61). -/
theorem xField_val (w : Word) : (xField w).val = w.toNat / 256 % 16 := by
  simp only [xField, BitVec.val_toFin, BitVec.extractLsb'_toNat, Nat.shiftRight_eq_div_pow]

/-! ### `RUNNING` (R81 to R84) -/

/-- Settles O7: the word at `pc` is the one fetched. -/
theorem stepRunsDecodedInstruction : Obligations.StepRunsDecodedInstruction :=
  fun _ _ _ hr hpc hw hd => step_of_decode_ok hr (State.fetch_eq_some_of_toNat hpc hw) hd

/-- Settles O8: the step is one diagnostic and one move of `pc`, behind the write of `ir`. -/
theorem undefinedWordIsSkippedWithDiagnostic : Obligations.UndefinedWordIsSkippedWithDiagnostic := by
  intro s w r hr hpc hw hd
  refine ⟨_, step_of_decode_error hr (State.fetch_eq_some_of_toNat hpc hw) hd, ?_, rfl, rfl,
    sameExcept_iff.2 (by simp)⟩
  exact State.stepPc_pc_toNat (s := (s.setIr w).emit _) (Nat.le_of_succ_le_succ hpc)

/-- Settles O9: a failed fetch is the raise of its fault. -/
theorem fetchOutsideMemoryFaults : Obligations.FetchOutsideMemoryFaults :=
  fun s hr hpc => ⟨s.raiseFetch, faultAddress s.pc, step_of_fetch_none hr (s.fetch_eq_none.2 hpc),
    faultAddress_toNat s.pc, s.raise_spec _ _⟩

/-! ### `AWAIT_KEY` and `FAULTED` (R86, R87) -/

theorem State.setRun_of_eq {s : State} {r : RunState} (h : s.run = r) : s.setRun r = s := by
  subst h
  rfl

/-- Settles O10: the resumed `Fx0A` without and with a latched key. -/
theorem awaitingStepResumesOrWaits : Obligations.AwaitingStepResumesOrWaits := by
  intro s hr
  rw [step_awaitKey hr]
  refine ⟨fun hk => ?_, fun k x hk hx => ?_⟩
  · rw [waitForKey_of_none hk, State.setRun_of_eq hr]
  · have hx' : xField s.ir = x := Fin.ext ((xField_val s.ir).trans hx.symm)
    rw [hx', waitForKey_of_some hk]
    refine ⟨_, rfl, s.setReg_reg_self x k, by simp, rfl, fun q hq => ?_, sameExcept_iff.2 (by simp)⟩
    exact s.setReg_reg_of_ne (fun e => hq (by simp [e])) k

/-- A program that fits is laid over the reset cells (R180). -/
theorem initializeWith_of_fits {p : List Byte} (h : p.length ≤ 3584) (font : Font) (s : State) :
    initializeWith font p s =
      (s.resetCells font).setMem ((s.resetCells font).mem.writeBytes Config.progBase p) :=
  if_neg (Nat.not_lt.2 h)

/-- Settles O11: none of the host's calls but `initialize` writes `run`, which it resets. -/
theorem faultedCoreStopsUntilReset : Obligations.FaultedCoreStopsUntilReset := by
  intro s hr
  refine ⟨step_faulted hr, hr, tickDown_toNat s.delay, tickDown_toNat s.sound, fun k => ⟨hr, rfl⟩, hr, rfl,
    fun font p hp => ?_⟩
  rw [initializeWith_of_fits hp]
  exact ⟨rfl, rfl⟩

/-! ### No step ends outside the states (R87, R152; log entry 3) -/

/-- Every instruction answers a next state: those that can fault answer the stopped state. -/
theorem exec_answers (i : Instr) (s : State) : ∃ t, exec i s = .next t := by
  cases i
  case ret => exact ⟨_, exec_ret_eq s⟩
  case call nnn => exact ⟨_, exec_call_eq nnn s⟩
  case drw x y n => exact ⟨_, exec_drw_eq x y n s⟩
  case ldB x => exact ⟨_, exec_ldB_eq x s⟩
  case stRegs x => exact ⟨_, exec_stRegs_eq x s⟩
  case ldRegs x => exact ⟨_, exec_ldRegs_eq x s⟩
  all_goals exact ⟨_, rfl⟩

/-- Settles O12: by the branches of the step. -/
theorem everyStepAnswersANextState : Obligations.EveryStepAnswersANextState := by
  intro s
  cases hr : s.run with
  | faulted => exact ⟨_, step_faulted hr⟩
  | awaitKey => exact ⟨_, step_awaitKey hr⟩
  | running =>
    cases hf : s.fetch with
    | none => exact ⟨_, step_of_fetch_none hr hf⟩
    | some w =>
      cases hd : decode w with
      | error r => exact ⟨_, step_of_decode_error hr hf hd⟩
      | ok i => exact step_of_decode_ok hr hf hd ▸ exec_answers i (s.setIr w)

/-! ### Where `pc` goes (R88, R89) -/

/-- The table of R88, for an instruction at a fetchable `pc` that does not stop the core. -/
theorem exec_pc_toNat {i : Instr} {s t : State} (h : exec i s = .next t) (ht : t.run ≠ .faulted)
    (hpc : s.pc.toNat ≤ 4094) (hslots : ∀ k : Fin 16, k.val < s.sp.val → (s.stack[k]).toNat ≤ 4094) :
    t.pc.toNat = pcAfter i s := by
  cases i
  case ret =>
    rw [exec_ret_eq] at h
    cases h
    split at ht
    · next hsp =>
      have hslot := hslots ⟨s.sp.val - 1, by omega⟩ (by simp; omega)
      simp only [Fin.getElem_fin] at hslot
      simp only [pcAfter, hsp, dite_true, State.setPc_pc, BitVec.toNat_add, BitVec.reduceToNat]
      omega
    · exact absurd rfl ht
  case call nnn =>
    rw [exec_call_eq] at h
    cases h
    split at ht
    · next hsp => simp only [hsp, dite_true, State.setPc_pc, zextAddr_toNat, pcAfter]
    · exact absurd rfl ht
  case jp nnn =>
    cases h
    exact zextAddr_toNat nnn
  case jpV0 nnn =>
    cases h
    simp only [State.setPc_pc, BitVec.toNat_add, zextByte_toNat, zextAddr_toNat, pcAfter]
    omega
  case seImm | seReg | skp =>
    cases h
    simp only [State.skipIf_pc_toNat hpc, pcAfter, beq_iff_eq, keyIs_iff]
  case sneImm | sneReg | sknp =>
    cases h
    refine (State.skipIf_not_pc_toNat hpc _).trans ?_
    simp only [pcAfter, beq_iff_eq, keyIs_iff]
  case ldVxK x =>
    cases h
    cases hk : s.key with
    | none =>
      rw [waitForKey_of_none hk]
      simp [pcAfter, hk]
    | some k =>
      rw [waitForKey_of_some hk]
      simpa [pcAfter, hk] using State.stepPc_pc_toNat hpc
  case drw | ldB | stRegs | ldRegs =>
    simp only [exec_drw_eq, exec_ldB_eq, exec_stRegs_eq, exec_ldRegs_eq] at h
    cases h
    split at ht
    · next hs =>
      rw [if_pos hs]
      exact State.stepPc_pc_toNat hpc
    · exact absurd rfl ht
  all_goals cases h; exact State.stepPc_pc_toNat hpc

/-- The table reads no cell that the fetch writes. -/
theorem pcAfter_setIr (i : Instr) (s : State) (w : Word) : pcAfter i (s.setIr w) = pcAfter i s := by
  cases i <;> rfl

/-- Settles O13: a step that stops the core is a raise, which leaves `pc`; any other follows the table. -/
theorem programCounterAfterStep : Obligations.ProgramCounterAfterStep := by
  intro s t w i hi hr hf hd h
  rw [step_of_decode_ok hr hf hd] at h
  refine ⟨fun ht => ?_, fun ht => ?_⟩
  · obtain ⟨_, _, _, rfl, -⟩ := exec_stops h (by simp [hr]) ht
    rfl
  · rw [exec_pc_toNat h ht (State.pc_le_of_fetch hf) hi.slotsFetchable, pcAfter_setIr]

end Sys2Proof.Machine

/-! PROOFS. The statements of 41_control_flow.md: jumps, the call stack, and the skips that compare registers. -/

namespace Sys2Proof.Machine

/-! ### The two jumps (R92, R98) -/

/-- A move of `pc` changes no other cell. -/
theorem State.setPc_same (s : State) (a : Word) : SameExcept [.pc] s (s.setPc a) :=
  sameExcept_iff.2 (by simp)

/-- Nothing can be fetched from the last byte of the address space on (R81). -/
theorem State.fetch_setPc_eq_none (s : State) {a : Word} (h : 4095 ≤ a.toNat) : (s.setPc a).fetch = none :=
  (s.setPc a).fetch_eq_none.2 (Nat.lt_succ_of_le h)

/-- The target of `Bnnn` is an exact sum: a byte and a 12-bit address do not wrap at 16 bits (R98). -/
theorem zextByte_add_zextAddr_toNat (b : Byte) (nnn : Addr) :
    (zextByte b + zextAddr nnn).toNat = b.toNat + nnn.toNat := by
  rw [BitVec.toNat_add, zextByte_toNat, zextAddr_toNat]
  omega

/-- Settles O16: `pc` is the target, and 0xFFF is the last byte of the address space. -/
theorem jumpSetsPc : Obligations.JumpSetsPc := by
  intro nnn s
  have htarget : (zextAddr nnn).toNat = nnn.toNat := zextAddr_toNat nnn
  exact ⟨s.setPc (zextAddr nnn), exec_jp nnn s, htarget, s.setPc_same _,
    fun h => s.fetch_setPc_eq_none (by omega)⟩

/-- Settles O20: `pc` is the exact sum. -/
theorem computedJumpAddsV0 : Obligations.ComputedJumpAddsV0 := by
  intro nnn s
  have htarget := zextByte_add_zextAddr_toNat (s.reg 0) nnn
  exact ⟨s.setPc (zextByte (s.reg 0) + zextAddr nnn), exec_jpV0 nnn s, htarget, s.setPc_same _,
    fun h => s.fetch_setPc_eq_none (by omega)⟩

/-! ### The call stack (R91, R93, R99) -/

theorem exec_call_of_free (nnn : Addr) {s : State} (h : s.sp.val < 16) : exec (.call nnn) s = .next
    (((s.setStack (s.stack.set s.sp.val s.pc h)).setSp ⟨s.sp.val + 1, by omega⟩).setPc (zextAddr nnn)) := by
  rw [exec_call_eq, dif_pos h]

theorem exec_call_of_full (nnn : Addr) {s : State} (h : s.sp.val = 16) :
    exec (.call nnn) s = .next (s.raise .stackOverflow ⟨s.pc, s.ir, 0⟩) := by
  rw [exec_call_eq, dif_neg (by omega)]

theorem exec_ret_of_occupied {s : State} (h : 0 < s.sp.val) : exec .ret s = .next
    ((s.setSp ⟨s.sp.val - 1, by omega⟩).setPc ((s.stack[s.sp.val - 1]'(by omega)) + 2)) := by
  rw [exec_ret_eq, dif_pos h]

theorem exec_ret_of_empty {s : State} (h : s.sp.val = 0) :
    exec .ret s = .next (s.raise .stackUnderflow ⟨s.pc, 0x00EE, 0⟩) := by
  rw [exec_ret_eq, dif_neg (by omega)]

/-- Settles O17: a free slot takes the old `pc`; without one the fault is raised. -/
theorem callPushesItsAddress : Obligations.CallPushesItsAddress := by
  intro nnn s
  refine ⟨fun h => ⟨_, exec_call_of_free nnn h, zextAddr_toNat nnn, rfl, ?_, fun k hk => ?_, ?_⟩,
    fun h => ⟨_, exec_call_of_full nnn h, s.raise_spec _ _⟩⟩
  · exact Vector.getElem_set_self h
  · exact Vector.getElem_set_ne h k.isLt hk.symm
  · exact sameExcept_iff.2 (by simp)

/-- Settles O18: the last occupied slot gives the address; without one the fault is raised. -/
theorem returnResumesAfterTheCall : Obligations.ReturnResumesAfterTheCall := by
  intro s
  exact ⟨fun h => ⟨_, exec_ret_of_occupied h, rfl, Nat.sub_add_cancel h, sameExcept_iff.2 (by simp)⟩,
    fun h => ⟨_, exec_ret_of_empty h, s.raise_spec _ _⟩⟩

/-- Settles O19: the slot that the return pops is the call's own, which holds the call's address. -/
theorem callThenReturnComesBack : Obligations.CallThenReturnComesBack := by
  intro nnn s t u h hcall husp hslot
  rw [exec_call_of_free nnn h] at hcall
  cases hcall
  have hsp : u.sp.val = s.sp.val + 1 := congrArg Fin.val husp
  have hpushed : u.stack[s.sp.val] = s.pc := hslot.trans (Vector.getElem_set_self h)
  have hpop : u.sp.val - 1 = s.sp.val := by omega
  refine ⟨_, exec_ret_of_occupied (by omega), ?_, Fin.ext hpop, hpushed⟩
  simp only [State.setPc_pc, hpop, hpushed]

/-! ### The skips (R89, R94 to R97) -/

/-- A skip on a test of `p`: only `pc` moves, by 4 when `p` holds and by 2 when not (R89). -/
theorem State.skipIf_spec (s : State) {c : Bool} {p : Prop} (hc : c = true ↔ p) :
    SameExcept [.pc] s (s.skipIf c) ∧ (p → (s.skipIf c).pc = s.pc + 4) ∧ (¬ p → (s.skipIf c).pc = s.pc + 2) := by
  refine ⟨s.setPc_same _, fun hp => ?_, fun hp => ?_⟩
  · rw [State.skipIf_pc, if_pos (hc.2 hp)]
  · rw [State.skipIf_pc, if_neg (hp ∘ hc.1)]

/-- The complementary skip: the two distances change places (R89). -/
theorem State.skipIf_not_spec (s : State) {c : Bool} {p : Prop} (hc : c = true ↔ p) :
    SameExcept [.pc] s (s.skipIf (!c)) ∧
      (p → (s.skipIf (!c)).pc = s.pc + 2) ∧ (¬ p → (s.skipIf (!c)).pc = s.pc + 4) := by
  have hnot : (!c) = true ↔ ¬ p := by rw [Bool.not_eq_true', ← Bool.not_eq_true, hc]
  obtain ⟨hsame, hskip, hnext⟩ := s.skipIf_spec hnot
  exact ⟨hsame, fun hp => hnext (not_not.2 hp), hskip⟩

/-- Settles O21: the two skips on one test, and the words the encoder writes for them. -/
theorem skipsComparingWithImmediate : Obligations.SkipsComparingWithImmediate :=
  fun x nn s => ⟨⟨_, exec_seImm x nn s, s.skipIf_spec beq_iff_eq⟩, ⟨_, exec_sneImm x nn s, s.skipIf_not_spec beq_iff_eq⟩,
    decode_encode (.seImm x nn), decode_encode (.sneImm x nn)⟩

/-- In families 5 and 9 a low nibble other than 0 selects no operation (R64, R66). -/
theorem decode_encodeXYN_undefined (x y : Reg) {n : BitVec 4} (hn : n ≠ 0) :
    decode (encodeXYN 0x5 x y n) = .error (.undefinedWord .family5) ∧
      decode (encodeXYN 0x9 x y n) = .error (.undefinedWord .family9) := by
  constructor <;> simpa [decode] using hn

/-- Settles O22: the two skips on one test, and their neighbours in families 5 and 9. -/
theorem skipsComparingRegisters : Obligations.SkipsComparingRegisters :=
  fun x y s => ⟨⟨_, exec_seReg x y s, s.skipIf_spec beq_iff_eq⟩, ⟨_, exec_sneReg x y s, s.skipIf_not_spec beq_iff_eq⟩,
    fun _ hn => decode_encodeXYN_undefined x y hn⟩

end Sys2Proof.Machine

/-! PROOFS. The statements of 42_alu.md: register loads, the ALU with its flag, and the random byte. -/

namespace Sys2Proof.Machine

/-! ### The two ways the ALU writes its result (R100) -/

/-- An instruction whose one write is the register `x` moves `pc` by 2 and leaves all else (R101 to R106). -/
theorem State.setReg_stepPc_spec (s : State) (x : Reg) (b : Byte) :
    (s.setReg x b).stepPc.pc = s.pc + 2 ∧ RegsSameExcept [x] s (s.setReg x b).stepPc ∧
      SameExcept [.v, .pc] s (s.setReg x b).stepPc := by
  refine ⟨by simp, fun r hr => ?_, sameExcept_iff.2 (by simp)⟩
  have hne : x ≠ r := fun e => hr (by simp [e])
  exact s.setReg_reg_of_ne hne b

/-- The result is the last write, so it stays in its destination, `VF` or not (R100, D12). -/
theorem State.writeFlagThenResult_reg_self (s : State) (x : Reg) (c : Bool) (b : Byte) :
    (s.writeFlagThenResult x c b).reg x = b := by
  simp [State.writeFlagThenResult_reg]

/-- An instruction that writes the flag `c` and then the register `x` moves `pc` by 2 and leaves all else; `n` is what
the flag means for the instruction (R100, R107 to R111). -/
theorem State.writeFlagThenResult_stepPc_spec (s : State) (x : Reg) {c : Bool} (b : Byte) {n : Nat}
    (hc : (flagByte c).toNat = n) :
    (x ≠ VF → ((s.writeFlagThenResult x c b).stepPc.reg VF).toNat = n) ∧
      (s.writeFlagThenResult x c b).stepPc.pc = s.pc + 2 ∧
      RegsSameExcept [x, VF] s (s.writeFlagThenResult x c b).stepPc ∧
      SameExcept [.v, .pc] s (s.writeFlagThenResult x c b).stepPc := by
  refine ⟨fun hx => ?_, by simp, fun r hr => ?_, sameExcept_iff.2 (by simp)⟩
  · rw [State.stepPc_reg, s.writeFlagThenResult_reg_VF hx, hc]
  · obtain ⟨hx, hVF⟩ : r ≠ x ∧ r ≠ VF := by simpa using hr
    rw [State.stepPc_reg, State.writeFlagThenResult_reg, if_neg hx.symm, if_neg hVF.symm]

/-! ### What each flag means -/

theorem flagByte_toNat (c : Bool) : (flagByte c).toNat = c.toNat := by
  cases c <;> rfl

theorem flagByte_decide_toNat (p : Prop) [Decidable p] : (flagByte (decide p)).toNat = if p then 1 else 0 := by
  rw [flagByte_toNat, Bool.toNat, Bool.cond_decide]

theorem flagByte_carryOut_toNat (a b : Byte) :
    (flagByte (carryOut a b)).toNat = if a.toNat + b.toNat > 255 then 1 else 0 :=
  flagByte_decide_toNat (255 < a.toNat + b.toNat)

theorem flagByte_noBorrow_toNat (a b : Byte) :
    (flagByte (noBorrow a b)).toNat = if a.toNat ≥ b.toNat then 1 else 0 :=
  flagByte_decide_toNat (b.toNat ≤ a.toNat)

theorem flagByte_shiftedOutRight_toNat (b : Byte) : (flagByte (shiftedOutRight b)).toNat = b.toNat % 2 := by
  rw [flagByte_toNat, shiftedOutRight, BitVec.getLsbD, Nat.toNat_testBit, pow_zero, Nat.div_one]

theorem flagByte_shiftedOutLeft_toNat (b : Byte) : (flagByte (shiftedOutLeft b)).toNat = b.toNat / 128 := by
  rw [flagByte_toNat, shiftedOutLeft, BitVec.getLsbD, Nat.toNat_testBit]
  omega

/-! ### Register loads, and the operations without a flag (R101 to R106) -/

/-- Settles O23: each is one register write. -/
theorem registerLoads : Obligations.RegisterLoads :=
  fun x y nn s =>
    ⟨⟨_, exec_ldImm x nn s, s.setReg_reg_self x nn, s.setReg_stepPc_spec x nn⟩,
      ⟨_, exec_ldReg x y s, s.setReg_reg_self x (s.reg y), s.setReg_stepPc_spec x (s.reg y)⟩,
      decode_encode (.ldImm x nn), decode_encode (.ldReg x y)⟩

/-- Settles O24: one register write, of a sum that wraps at 8 bits. -/
theorem addImmediateWrapsWithoutFlag : Obligations.AddImmediateWrapsWithoutFlag := by
  intro x nn s
  obtain ⟨hpc, hregs, hsame⟩ := s.setReg_stepPc_spec x (s.reg x + nn)
  refine ⟨_, exec_addImm x nn s, ?_, hpc, hregs, hsame, decode_encode (.addImm x nn)⟩
  rw [State.stepPc_reg, State.setReg_reg_self, BitVec.toNat_add]

/-- Settles O25: one register write each, of the bitwise operation. -/
theorem logicIsBitwiseWithoutFlag : Obligations.LogicIsBitwiseWithoutFlag := by
  intro x y s
  refine ⟨⟨_, exec_orReg x y s, fun k _ => ?_, s.setReg_stepPc_spec x _⟩,
    ⟨_, exec_andReg x y s, fun k _ => ?_, s.setReg_stepPc_spec x _⟩,
    ⟨_, exec_xorReg x y s, fun k _ => ?_, s.setReg_stepPc_spec x _⟩,
    decode_encode (.orReg x y), decode_encode (.andReg x y), decode_encode (.xorReg x y)⟩
  · rw [State.stepPc_reg, State.setReg_reg_self, BitVec.getLsbD_or]
  · rw [State.stepPc_reg, State.setReg_reg_self, BitVec.getLsbD_and]
  · rw [State.stepPc_reg, State.setReg_reg_self, BitVec.getLsbD_xor]

/-! ### The operations with a flag (R107 to R111) -/

/-- A difference of bytes is the integer difference modulo 256. -/
theorem toNat_sub_eq_emod (a b : Byte) : ((a - b).toNat : Int) = (a.toNat - b.toNat : Int) % 256 := by
  rw [BitVec.toNat_sub]
  omega

/-- Settles O26: the flag is the carry, and the result the sum that wraps. -/
theorem addSetsCarry : Obligations.AddSetsCarry := by
  intro x y s
  refine ⟨_, exec_addReg x y s, ?_, s.writeFlagThenResult_stepPc_spec x _ (flagByte_carryOut_toNat _ _)⟩
  rw [State.stepPc_reg, State.writeFlagThenResult_reg_self, BitVec.toNat_add]

/-- Settles O27: the flag is the absence of a borrow. -/
theorem subtractSetsNoBorrow : Obligations.SubtractSetsNoBorrow := by
  intro x y s
  refine ⟨_, exec_sub x y s, ?_, s.writeFlagThenResult_stepPc_spec x _ (flagByte_noBorrow_toNat _ _)⟩
  rw [State.stepPc_reg, State.writeFlagThenResult_reg_self, toNat_sub_eq_emod]

/-- Settles O28: as `8xy5` with the operands in the other order. -/
theorem reverseSubtractSetsNoBorrow : Obligations.ReverseSubtractSetsNoBorrow := by
  intro x y s
  refine ⟨_, exec_subn x y s, ?_, s.writeFlagThenResult_stepPc_spec x _ (flagByte_noBorrow_toNat _ _)⟩
  rw [State.stepPc_reg, State.writeFlagThenResult_reg_self, toNat_sub_eq_emod]

/-- Settles O29: a shift right by one halves, and shifts bit 0 out. -/
theorem shiftRightTakesTheLowBit : Obligations.ShiftRightTakesTheLowBit := by
  intro x y s
  refine ⟨_, exec_shr x y s, ?_, s.writeFlagThenResult_stepPc_spec x _ (flagByte_shiftedOutRight_toNat _)⟩
  rw [State.stepPc_reg, State.writeFlagThenResult_reg_self, BitVec.toNat_ushiftRight, Nat.shiftRight_eq_div_pow, pow_one]

/-- Settles O30: a shift left by one doubles modulo 256, and shifts bit 7 out. -/
theorem shiftLeftTakesTheHighBit : Obligations.ShiftLeftTakesTheHighBit := by
  intro x y s
  refine ⟨_, exec_shl x y s, ?_, s.writeFlagThenResult_stepPc_spec x _ (flagByte_shiftedOutLeft_toNat _)⟩
  rw [State.stepPc_reg, State.writeFlagThenResult_reg_self, BitVec.toNat_shiftLeft, Nat.shiftLeft_eq, pow_one]

/-! ### The random byte (R112) -/

/-- What is masked with `m` has no bit outside `m`. -/
theorem and_and_not_eq_zero (a m : Byte) : a &&& m &&& ~~~m = 0 := by
  rw [BitVec.and_assoc, BitVec.and_not_self]
  exact BitVec.and_zero

/-- Settles O31: one register write, of the masked byte, once the draw is counted. -/
theorem randomByteIsMasked : Obligations.RandomByteIsMasked := by
  intro x nn s
  have hresult : (rndWith s.drawnByte x nn s.countDraw).reg x = Config.randByte s.draws &&& nn :=
    s.countDraw.setReg_reg_self x _
  obtain ⟨hpc, hregs, -⟩ := s.countDraw.setReg_stepPc_spec x (s.drawnByte &&& nn)
  refine ⟨_, exec_rnd x nn s, fun k _ => ?_, ?_, hpc, rfl, hregs, sameExcept_iff.2 (by simp [rndWith])⟩
  · rw [hresult, BitVec.getLsbD_and]
  · rw [hresult, and_and_not_eq_zero]

end Sys2Proof.Machine

/-! PROOFS. The statements of 43_index_memory.md: the index register, and the blocks of bytes it addresses. -/

namespace Sys2Proof.Machine

/-! ### The instructions that only write `I` (R121 to R123) -/

/-- An instruction whose one write is `I` moves `pc` by 2 and leaves all else. -/
theorem State.setI_stepPc_spec (s : State) (a : Word) :
    (s.setI a).stepPc.pc = s.pc + 2 ∧ SameExcept [.i, .pc] s (s.setI a).stepPc :=
  ⟨rfl, sameExcept_iff.2 (by simp)⟩

/-- The address of a glyph is an exact product: five times a byte does not wrap at 16 bits (R123). -/
theorem glyphAddress_toNat (b : Byte) : (zextByte b * .ofNat 16 Config.glyphBytes).toNat = b.toNat * 5 := by
  rw [BitVec.toNat_mul, zextByte_toNat, Config.glyphBytes_eq, BitVec.toNat_ofNat]
  omega

/-- Settles O33: one write of `I`, of a zero-extended immediate. -/
theorem loadIndexImmediate : Obligations.LoadIndexImmediate := by
  intro nnn s
  have hi : (zextAddr nnn).toNat = nnn.toNat := zextAddr_toNat nnn
  obtain ⟨hpc, hsame⟩ := s.setI_stepPc_spec (zextAddr nnn)
  exact ⟨_, exec_ldI nnn s, hi, hi.trans_le (Nat.le_of_lt_succ nnn.isLt), hpc, hsame, decode_encode (.ldI nnn)⟩

/-- Settles O34: one write of `I`, of a sum that wraps at 16 bits. -/
theorem addToIndexWraps : Obligations.AddToIndexWraps := by
  intro x s
  refine ⟨_, exec_addI x s, ?_, s.setI_stepPc_spec _⟩
  exact (BitVec.toNat_add _ _).trans (by rw [zextByte_toNat])

/-- Settles O35: one write of `I`, of an exact product. -/
theorem glyphAddressIsFiveTimes : Obligations.GlyphAddressIsFiveTimes :=
  fun x s => ⟨_, exec_ldF x s, glyphAddress_toNat (s.reg x), s.setI_stepPc_spec _⟩

/-! ### The font in memory (R42, R180) -/

/-- A program that fits lies above the font, so `initialize` leaves `FONT` at 0 to 79. -/
theorem initializeWith_read_font {p : List Byte} (h : p.length ≤ 3584) (font : Font) (s : State) {a : Nat} (ha : a < 80) :
    (initializeWith font p s).mem.read a = font[a] := by
  have hbelow : a < Config.progBase := by simp only [Config.progBase_eq]; omega
  rw [initializeWith_of_fits h]
  exact (Memory.read_writeBytes_outside _ p _ a (.inl hbelow)).trans (State.resetWith_read_font font ha)

/-- Settles O60: `I` is where glyph `k` starts, and the bytes there are the font's. -/
theorem glyphLookupFindsTheFont : Obligations.GlyphLookupFindsTheFont := by
  intro font p s t x k hk hp hmem hx
  obtain ⟨u, hu, hi, -, hsame⟩ := glyphAddressIsFiveTimes x t
  refine ⟨u, hu, fun j hj => ?_⟩
  have haddr : u.i.toNat + j = 5 * k + j := by omega
  rw [hsame .mem (by simp), hmem, haddr]
  exact initializeWith_read_font hp font s _

/-! ### An access range outside the address space (R43, R151) -/

/-- What the data fault records: the lowest address of the range that lies outside (R151). -/
theorem State.raiseData_spec (s : State) : ∃ a : BitVec 17, a.toNat = max s.i.toNat 4096 ∧
    FaultedWith .memBoundsData ⟨s.pc, s.ir, a⟩ s s.raiseData :=
  ⟨faultAddress s.i, faultAddress_toNat s.i, s.raise_spec _ _⟩

/-- An instruction that answers the data fault answers a stopped state with its record. -/
theorem exists_faultedWith_of_raiseData {i : Instr} {s : State} (h : exec i s = .next s.raiseData) :
    ∃ (t : State) (a : BitVec 17), exec i s = .next t ∧ a.toNat = max s.i.toNat 4096 ∧
      FaultedWith .memBoundsData ⟨s.pc, s.ir, a⟩ s t := by
  obtain ⟨a, ha, hfault⟩ := s.raiseData_spec
  exact ⟨_, a, h, ha, hfault⟩

/-- The access check on the `n + 1` bytes from `I` on (R43, R120). -/
theorem State.inSpace_base_succ (s : State) (n : Nat) : inSpace s.base (n + 1) = true ↔ s.i.toNat + n ≤ 4095 := by
  rw [inSpace_iff, State.base]
  omega

/-! ### The decimal digits (R124) -/

@[simp] theorem bcdDigits_length (b : Byte) : (bcdDigits b).length = 2 + 1 := rfl

theorem exec_ldB_of_inside (x : Reg) {s : State} (h : s.i.toNat + 2 ≤ 4095) :
    exec (.ldB x) s = .next (s.setMem (s.mem.writeBytes s.base (bcdDigits (s.reg x)))).stepPc := by
  rw [exec_ldB_eq, bcdDigits_length, if_pos ((s.inSpace_base_succ 2).2 h)]

theorem exec_ldB_of_outside (x : Reg) {s : State} (h : 4095 < s.i.toNat + 2) :
    exec (.ldB x) s = .next s.raiseData := by
  rw [exec_ldB_eq, bcdDigits_length, if_neg (mt (s.inSpace_base_succ 2).1 (Nat.not_le.2 h))]

/-- A part of a byte's number fits in a byte, so writing it as one cuts nothing off. -/
theorem ofNat_toNat_of_le {n : Nat} {b : Byte} (h : n ≤ b.toNat) : (BitVec.ofNat 8 n).toNat = n :=
  (BitVec.toNat_ofNat n 8).trans (Nat.mod_eq_of_lt (h.trans_lt b.isLt))

/-- The digits as numbers: hundreds, tens, ones (R124). -/
theorem bcdDigits_getElem_toNat (b : Byte) :
    ((bcdDigits b)[0]'(by simp)).toNat = b.toNat / 100 ∧ ((bcdDigits b)[1]'(by simp)).toNat = b.toNat / 10 % 10 ∧
      ((bcdDigits b)[2]'(by simp)).toNat = b.toNat % 10 :=
  ⟨ofNat_toNat_of_le (b := b) (by omega), ofNat_toNat_of_le (b := b) (by omega),
    ofNat_toNat_of_le (b := b) (by omega)⟩

/-- Settles O36: the three digits are the three bytes of the block stored. -/
theorem bcdStoresThreeDigits : Obligations.BcdStoresThreeDigits := by
  intro x s
  refine ⟨fun hw h => ?_, fun h => exists_faultedWith_of_raiseData (exec_ldB_of_outside x h)⟩
  have hin : inSpace s.base (bcdDigits (s.reg x)).length = true := (s.inSpace_base_succ 2).2 h
  have hread (k : Nat) (hk : k < 3) := Memory.read_writeBytes_inside hw (bcdDigits (s.reg x)) s.base k hk hin
  obtain ⟨hhundreds, htens, hones⟩ := bcdDigits_getElem_toNat (s.reg x)
  refine ⟨_, exec_ldB_of_inside x h, ?_, ?_, ?_, fun a ha => ?_, rfl, sameExcept_iff.2 (by simp)⟩
  · exact (congrArg BitVec.toNat (hread 0 (by decide))).trans hhundreds
  · exact (congrArg BitVec.toNat (hread 1 (by decide))).trans htens
  · exact (congrArg BitVec.toNat (hread 2 (by decide))).trans hones
  · exact Memory.read_writeBytes_outside _ (bcdDigits (s.reg x)) _ a ha

/-! ### The block of registers (R125, R126) -/

/-- An instruction that has left `I` inside the address space moves it past the block without a wrap (R125, R126). -/
theorem State.advanceIndex_stepPc_i_toNat {s t : State} {x : Reg} (hi : t.i = s.i) (h : s.i.toNat + x.val ≤ 4095) :
    (t.advanceIndex x).stepPc.i.toNat = s.i.toNat + x.val + 1 := by
  have hsum : (t.advanceIndex x).stepPc.i = s.i + .ofNat 16 (regCount x) := hi ▸ rfl
  rw [hsum, BitVec.toNat_add, BitVec.toNat_ofNat, regCount]
  omega

/-- Byte `r` of the block of registers is `V[r]` (R125). -/
theorem State.regsUpTo_getElem (s : State) (x r : Reg) (h : r.val < (s.regsUpTo x).length) :
    (s.regsUpTo x)[r.val] = s.reg r := by
  simp [State.regsUpTo, State.reg]

theorem regCount_eq (x : Reg) : regCount x = x.val + 1 := rfl

theorem exec_stRegs_of_inside {x : Reg} {s : State} (h : s.i.toNat + x.val ≤ 4095) : exec (.stRegs x) s =
    .next ((s.setMem (s.mem.writeBytes s.base (s.regsUpTo x))).advanceIndex x).stepPc := by
  rw [exec_stRegs_eq, State.regsUpTo_length, if_pos ((s.inSpace_base_succ _).2 h)]

theorem exec_stRegs_of_outside {x : Reg} {s : State} (h : 4095 < s.i.toNat + x.val) :
    exec (.stRegs x) s = .next s.raiseData := by
  rw [exec_stRegs_eq, State.regsUpTo_length, if_neg (mt (s.inSpace_base_succ _).1 (Nat.not_le.2 h))]

theorem exec_ldRegs_of_inside {x : Reg} {s : State} (h : s.i.toNat + x.val ≤ 4095) : exec (.ldRegs x) s =
    .next ((s.loadRegs (s.mem.readBytes s.base (regCount x))).advanceIndex x).stepPc := by
  rw [exec_ldRegs_eq, regCount_eq, if_pos ((s.inSpace_base_succ x.val).2 h)]

theorem exec_ldRegs_of_outside {x : Reg} {s : State} (h : 4095 < s.i.toNat + x.val) :
    exec (.ldRegs x) s = .next s.raiseData := by
  rw [exec_ldRegs_eq, regCount_eq, if_neg (mt (s.inSpace_base_succ x.val).1 (Nat.not_le.2 h))]

/-- A register below the number of bytes loaded takes its byte (R126). -/
theorem State.loadRegs_readBytes_reg_of_lt (s : State) (m : Memory) (base : Nat) {n : Nat} {r : Reg} (h : r.val < n) :
    (s.loadRegs (m.readBytes base n)).reg r = m.read (base + r.val) := by
  rw [State.loadRegs_reg, Memory.readBytes_getElem? m n base r.val h, Option.getD_some]

/-- A register above the bytes loaded keeps its value (R126). -/
theorem State.loadRegs_readBytes_reg_of_le (s : State) (m : Memory) (base : Nat) {n : Nat} {r : Reg} (h : n ≤ r.val) :
    (s.loadRegs (m.readBytes base n)).reg r = s.reg r := by
  rw [State.loadRegs_reg, List.getElem?_eq_none ((m.readBytes_length n base).trans_le h), Option.getD_none]

/-- Settles O37: byte `r` of the block stored is `V[r]`. -/
theorem storeRegistersAdvancesIndex : Obligations.StoreRegistersAdvancesIndex := by
  intro x s
  refine ⟨fun hw h => ?_, fun h => exists_faultedWith_of_raiseData (exec_stRegs_of_outside h)⟩
  have hlen : (s.regsUpTo x).length = x.val + 1 := s.regsUpTo_length x
  have hin : inSpace s.base (s.regsUpTo x).length = true := hlen ▸ (s.inSpace_base_succ _).2 h
  refine ⟨_, exec_stRegs_of_inside h, fun r hr => ?_, fun a ha => ?_, State.advanceIndex_stepPc_i_toNat (by simp) h,
    by simp, sameExcept_iff.2 (by simp)⟩
  · have hr' : r.val < (s.regsUpTo x).length := by omega
    exact (Memory.read_writeBytes_inside hw _ _ r.val hr' hin).trans (s.regsUpTo_getElem x r hr')
  · refine Memory.read_writeBytes_outside _ (s.regsUpTo x) _ a ?_
    rw [hlen]
    exact ha

/-- Settles O38: `V[r]` is byte `r` of the block loaded. -/
theorem loadRegistersAdvancesIndex : Obligations.LoadRegistersAdvancesIndex := by
  intro x s
  refine ⟨fun h => ?_, fun h => exists_faultedWith_of_raiseData (exec_ldRegs_of_outside h)⟩
  refine ⟨_, exec_ldRegs_of_inside h, fun r hr => ?_, fun r hr => ?_, State.advanceIndex_stepPc_i_toNat (by simp) h,
    by simp, sameExcept_iff.2 (by simp)⟩
  · rw [State.stepPc_reg, State.advanceIndex_reg]
    exact s.loadRegs_readBytes_reg_of_lt s.mem s.base (Nat.lt_succ_of_le hr)
  · rw [State.stepPc_reg, State.advanceIndex_reg]
    exact s.loadRegs_readBytes_reg_of_le s.mem s.base hr

/-- Settles O39: what `Fx65` loads from `I` on is what `Fx55` stored there, and both move `I` by the same amount. -/
theorem storeThenLoadGivesRegistersBack : Obligations.StoreThenLoadGivesRegistersBack := by
  intro x s t u hw h hst hi hmem
  obtain ⟨t', ht', hstored, -, hti, -⟩ := (storeRegistersAdvancesIndex x s).1 hw h
  cases hst.symm.trans ht'
  obtain ⟨v, hv, hloaded, -, hvi, -⟩ := (loadRegistersAdvancesIndex x u).1 (hi ▸ h)
  rw [hi] at hloaded hvi
  rw [hmem] at hloaded
  exact ⟨v, hv, fun r hr => (hloaded r hr).trans (hstored r hr), BitVec.eq_of_toNat_eq (hvi.trans hti.symm), hti⟩

end Sys2Proof.Machine

/-! PROOFS. The statements of 44_display.md: the clear, the sprite draw with its collision, and what it faults on. -/

namespace Sys2Proof.Machine

/-! ### The clear (R131) -/

/-- Settles O41: `clearFb` is all dark, and only the three cells of the frame are written. -/
theorem clearScreenClearsEveryCell : Obligations.ClearScreenClearsEveryCell :=
  fun s => ⟨_, exec_cls s, litAt_clearFb, rfl, rfl, sameExcept_iff.2 (by simp)⟩

/-! ### The rows in the address space or not (R43, R132, R138) -/

/-- The access check on the `n` rows at `I`; with no row there is none (R43, R138). -/
theorem inSpace_rows_iff {n : Height} {s : State} :
    inSpace s.base n.val = true ↔ n.val = 0 ∨ s.i.toNat + n.val - 1 ≤ 4095 := by
  rw [inSpace_iff, State.base]
  omega

theorem exec_drw_of_inside (x y : Reg) {n : Height} {s : State} (h : n.val = 0 ∨ s.i.toNat + n.val - 1 ≤ 4095) :
    exec (.drw x y n) s =
      .next (s.drawRows (s.reg x) (s.reg y) (s.mem.readBytes s.base n.val)).stepPc := by
  rw [exec_drw_eq, if_pos (inSpace_rows_iff.2 h)]

theorem exec_drw_of_outside (x y : Reg) {n : Height} {s : State} (hn : 0 < n.val)
    (h : 4095 < s.i.toNat + n.val - 1) : exec (.drw x y n) s = .next s.raiseData := by
  rw [exec_drw_eq, if_neg (mt inSpace_rows_iff.1 (by omega))]

/-- Settles O43: the check fails before anything is drawn. -/
theorem drawOutsideMemoryFaults : Obligations.DrawOutsideMemoryFaults :=
  fun x y _ _ hn h => exists_faultedWith_of_raiseData (exec_drw_of_outside x y hn h)

/-! ### The cells a sprite covers (R132 to R134) -/

theorem getLsbD_iff_div_mod (b : Byte) (k : Nat) : b.getLsbD k = true ↔ b.toNat / 2 ^ k % 2 = 1 := by
  rw [BitVec.getLsbD, Nat.testBit_eq_decide_div_mod_eq, decide_eq_true_iff]

theorem Memory.readBytes_getElem?_eq_some {m : Memory} {base n k : Nat} {b : Byte} :
    (m.readBytes base n)[k]? = some b ↔ k < n ∧ m.read (base + k) = b := by
  by_cases hk : k < n
  · rw [Memory.readBytes_getElem? m n base k hk, Option.some_inj, and_iff_right hk]
  · simp [hk]

theorem eq_wrapped_iff {x0 y0 : Byte} {c r : Nat} {p : Pixel} : p = (wrapColumn x0 c, wrapRow y0 r) ↔
    p.1.val = (x0.toNat + c) % 64 ∧ p.2.val = (y0.toNat + r) % 32 := by
  rw [Prod.ext_iff, Fin.ext_iff, Fin.ext_iff]
  rfl

/-- The cells that the model toggles for `Dxyn` are the ones the sprite covers. -/
theorem mem_spritePixels_readBytes {s : State} {x y : Reg} {n : Height} {p : Pixel} :
    p ∈ spritePixels (s.reg x) (s.reg y) 0 (s.mem.readBytes s.base n.val) ↔ SpriteCovers s x y n p := by
  simp only [mem_spritePixels, Memory.readBytes_getElem?_eq_some, getLsbD_iff_div_mod, eq_wrapped_iff, Nat.zero_add]
  constructor
  · rintro ⟨r, _, c, ⟨hr, rfl⟩, hc, hbit, hp⟩
    exact ⟨r, c, hr, hc, hbit, hp⟩
  · rintro ⟨r, c, hr, hc, hbit, hp⟩
    exact ⟨r, _, c, ⟨hr, rfl⟩, hc, hbit, hp⟩

/-- What a sprite covers depends on its two coordinates, `I` and memory alone. -/
theorem spriteCovers_congr {s t : State} {x y : Reg} {n : Height} {p : Pixel} (hx : t.reg x = s.reg x)
    (hy : t.reg y = s.reg y) (hi : t.i = s.i) (hm : ∀ a, t.mem.read a = s.mem.read a) :
    SpriteCovers t x y n p ↔ SpriteCovers s x y n p := by
  simp only [SpriteCovers, hx, hy, hi, hm]

/-! ### The draw (R132 to R136) -/

/-- A draw of at most 32 rows toggles the cells hit (R135). -/
theorem State.litAt_drawRows_of_mem (s : State) {x0 y0 : Byte} {bs : List Byte} (h : bs.length ≤ 32) {p : Pixel}
    (hp : p ∈ spritePixels x0 y0 0 bs) : litAt (s.drawRows x0 y0 bs).fb p = !litAt s.fb p :=
  ((blit_spec (spritePixels_nodup x0 y0 bs 0 h)).1 p).trans (by simp [hp])

/-- A draw of at most 32 rows leaves the cells not hit (R132). -/
theorem State.litAt_drawRows_of_notMem (s : State) {x0 y0 : Byte} {bs : List Byte} (h : bs.length ≤ 32) {p : Pixel}
    (hp : p ∉ spritePixels x0 y0 0 bs) : litAt (s.drawRows x0 y0 bs).fb p = litAt s.fb p :=
  ((blit_spec (spritePixels_nodup x0 y0 bs 0 h)).1 p).trans (by simp [hp])

/-- A draw that hits a lit cell is a collision (R132). -/
theorem State.drawRows_reg_VF_of_lit (s : State) {x0 y0 : Byte} {bs : List Byte} (h : bs.length ≤ 32) {p : Pixel}
    (hp : p ∈ spritePixels x0 y0 0 bs) (hlit : litAt s.fb p = true) : (s.drawRows x0 y0 bs).reg VF = 1 := by
  have hflag := (blit_spec (fb := s.fb) (spritePixels_nodup x0 y0 bs 0 h)).2.trans (List.any_eq_true.2 ⟨p, hp, hlit⟩)
  simp [State.drawRows, hflag, flagByte]

/-- A draw that hits no lit cell is no collision (R132). -/
theorem State.drawRows_reg_VF_of_unlit (s : State) {x0 y0 : Byte} {bs : List Byte} (h : bs.length ≤ 32)
    (hunlit : ∀ p ∈ spritePixels x0 y0 0 bs, ¬ litAt s.fb p = true) : (s.drawRows x0 y0 bs).reg VF = 0 := by
  have hflag := (blit_spec (fb := s.fb) (spritePixels_nodup x0 y0 bs 0 h)).2.trans (List.any_eq_false.2 hunlit)
  simp [State.drawRows, hflag, flagByte]

/-- A draw marks the framebuffer, moves `pc` by 2 and leaves every register but `VF` and every other cell. -/
theorem State.drawRows_stepPc_spec (s : State) (x0 y0 : Byte) (bs : List Byte) :
    (s.drawRows x0 y0 bs).stepPc.fbDirty = true ∧ (s.drawRows x0 y0 bs).stepPc.pc = s.pc + 2 ∧
      RegsSameExcept [VF] s (s.drawRows x0 y0 bs).stepPc ∧
      SameExcept [.v, .fb, .fbDirty, .pc] s (s.drawRows x0 y0 bs).stepPc := by
  refine ⟨rfl, by simp, fun r hr => ?_, sameExcept_iff.2 (by simp)⟩
  have hne : VF ≠ r := fun e => hr (by simp [e])
  exact State.setReg_reg_of_ne _ hne _

/-- Settles O42: the cells hit are the ones covered, and a covered cell that was lit is one that becomes unlit. -/
theorem drawTogglesTheSprite : Obligations.DrawTogglesTheSprite := by
  intro x y n s h
  have hlen : (s.mem.readBytes s.base n.val).length ≤ 32 := by
    rw [Memory.readBytes_length]
    omega
  have htoggled (p) (hp : SpriteCovers s x y n p) :=
    s.litAt_drawRows_of_mem hlen (mem_spritePixels_readBytes.2 hp)
  have hkept (p) (hp : ¬ SpriteCovers s x y n p) :=
    s.litAt_drawRows_of_notMem hlen (mt mem_spritePixels_readBytes.1 hp)
  refine ⟨_, exec_drw_of_inside x y h, htoggled, hkept, ?_, fun hall => ?_, s.drawRows_stepPc_spec _ _ _⟩
  · rintro ⟨p, hlit, hunlit⟩
    have hp : SpriteCovers s x y n p := by
      by_contra hp
      exact absurd ((hkept p hp).symm.trans hunlit) (by simp [hlit])
    exact s.drawRows_reg_VF_of_lit hlen (mem_spritePixels_readBytes.2 hp) hlit
  · refine s.drawRows_reg_VF_of_unlit hlen fun p hp hlit => ?_
    have htoggled_p := htoggled p (mem_spritePixels_readBytes.1 hp)
    exact absurd (htoggled_p.symm.trans (hall p hlit)) (by simp [hlit])

/-- Settles O44: with no row no cell is covered, so every pixel stays and none becomes unlit. -/
theorem drawOfHeightZero : Obligations.DrawOfHeightZero := by
  intro x y s
  obtain ⟨t, ht, -, hkept, -, hclear, hdirty, hpc, hregs, hsame⟩ := drawTogglesTheSprite x y 0 s (.inl rfl)
  have hpixels (p) : litAt t.fb p = litAt s.fb p := hkept p fun ⟨_, _, hr, _⟩ => absurd hr (Nat.not_lt_zero _)
  refine ⟨t, ht, hclear fun p hp => (hpixels p).trans hp, hdirty, hpc, hregs, fun f hf => ?_⟩
  by_cases hfb : f = .fb
  · subst hfb
    exact fb_ext hpixels
  · exact hsame f (by simp_all)

/-- Settles O45: the second draw covers the same cells. After a first without a collision, a covered cell was unlit,
so it is lit in between and unlit at the end. -/
theorem drawingTwiceErases : Obligations.DrawingTwiceErases := by
  intro x y n s t u hx hy h hst htu
  obtain ⟨t', ht', htoggled, hkept, hcollide, -, -, -, hregs, hsame⟩ := drawTogglesTheSprite x y n s h
  cases hst.symm.trans ht'
  have hi : t.i = s.i := hsame .i (by simp)
  obtain ⟨u', hu', htoggled', hkept', hcollide', -⟩ := drawTogglesTheSprite x y n t (hi ▸ h)
  cases htu.symm.trans hu'
  have hcovers (p) : SpriteCovers t x y n p ↔ SpriteCovers s x y n p :=
    spriteCovers_congr (hregs x (by simpa using hx)) (hregs y (by simpa using hy)) hi (hsame .mem (by simp))
  have hrestored (p) : litAt u.fb p = litAt s.fb p := by
    by_cases hp : SpriteCovers s x y n p
    · rw [htoggled' p ((hcovers p).2 hp), htoggled p hp, Bool.not_not]
    · rw [hkept' p (mt (hcovers p).1 hp), hkept p hp]
  refine ⟨hrestored, fun hVF ⟨p, hp⟩ => hcollide' ⟨p, ?_⟩⟩
  have hunlit : litAt s.fb p = false := by
    by_contra hlit
    rw [Bool.not_eq_false] at hlit
    exact absurd (hVF.symm.trans (hcollide ⟨p, hlit, by rw [htoggled p hp, hlit]; rfl⟩)) (by decide)
  exact ⟨by rw [htoggled p hp, hunlit]; rfl, (hrestored p).trans hunlit⟩

end Sys2Proof.Machine

/-! PROOFS. The statements of 45_keypad_timers.md: the key skips, the key wait, the timers, and the host's two writes. -/

namespace Sys2Proof.Machine

/-! ### The keypad (R141 to R143) -/

/-- Settles O46: the two skips on one test of the latch, and the words the encoder writes for them. -/
theorem keySkipsCompareTheLatch : Obligations.KeySkipsCompareTheLatch := by
  intro x s
  have htest : keyIs s.key (s.reg x) = true ↔ s.key = some (s.reg x) := keyIs_iff s.key (s.reg x)
  exact ⟨⟨_, exec_skp x s, s.skipIf_spec htest⟩, ⟨_, exec_sknp x s, s.skipIf_not_spec htest⟩,
    decode_encode (.skp x), decode_encode (.sknp x)⟩

/-- A completed key wait is the write of one register, with the core running (R86, R143). -/
theorem waitForKey_spec_of_some {s : State} {k : Byte} (h : s.key = some k) (x : Reg) :
    (waitForKey x s).reg x = k ∧ (waitForKey x s).pc = s.pc + 2 ∧ (waitForKey x s).run = .running ∧
      RegsSameExcept [x] s (waitForKey x s) ∧ SameExcept [.v, .pc, .run] s (waitForKey x s) := by
  rw [waitForKey_of_some h]
  obtain ⟨hpc, hregs, -⟩ := s.setReg_stepPc_spec x k
  exact ⟨s.setReg_reg_self x k, hpc, rfl, hregs, sameExcept_iff.2 (by simp)⟩

/-- A key wait without a key writes the run state alone (R86, R143). -/
theorem waitForKey_spec_of_none {s : State} (h : s.key = none) (x : Reg) :
    (waitForKey x s).run = .awaitKey ∧ SameExcept [.run] s (waitForKey x s) := by
  rw [waitForKey_of_none h]
  exact ⟨rfl, sameExcept_iff.2 (by simp)⟩

/-- Settles O47: the key wait completes when a key is latched and suspends when none is. -/
theorem keyWaitCompletesOrSuspends : Obligations.KeyWaitCompletesOrSuspends :=
  fun x s => ⟨fun _ hk => ⟨_, exec_ldVxK x s, waitForKey_spec_of_some hk x⟩,
    fun hk => ⟨_, exec_ldVxK x s, waitForKey_spec_of_none hk x⟩⟩

/-! ### The timers (R144 to R146) -/

/-- An instruction whose one write is `delay` moves `pc` by 2 and leaves all else. -/
theorem State.setDelay_stepPc_spec (s : State) (b : Byte) :
    (s.setDelay b).stepPc.pc = s.pc + 2 ∧ SameExcept [.delay, .pc] s (s.setDelay b).stepPc :=
  ⟨rfl, sameExcept_iff.2 (by simp)⟩

/-- An instruction whose one write is `sound` moves `pc` by 2 and leaves all else. -/
theorem State.setSound_stepPc_spec (s : State) (b : Byte) :
    (s.setSound b).stepPc.pc = s.pc + 2 ∧ SameExcept [.sound, .pc] s (s.setSound b).stepPc :=
  ⟨rfl, sameExcept_iff.2 (by simp)⟩

/-- Settles O48: one write each, of a register or of a timer, and the words the encoder writes for the three. -/
theorem timerInstructionsCopyOneByte : Obligations.TimerInstructionsCopyOneByte :=
  fun x s =>
    ⟨⟨_, exec_ldVxDt x s, s.setReg_reg_self x s.delay, s.setReg_stepPc_spec x s.delay⟩,
      ⟨_, exec_ldDtVx x s, rfl, s.setDelay_stepPc_spec (s.reg x)⟩,
      ⟨_, exec_ldStVx x s, rfl, s.setSound_stepPc_spec (s.reg x)⟩,
      decode_encode (.ldVxDt x), decode_encode (.ldDtVx x), decode_encode (.ldStVx x)⟩

/-! ### The host's writes of the latch and of `fb_dirty` (R136, R140) -/

theorem setKey_same (k : Option Byte) (s : State) : SameExcept [.key] s (setKey k s) :=
  sameExcept_iff.2 (by simp [setKey])

theorem ackFrame_same (s : State) : SameExcept [.fbDirty] s (ackFrame s) :=
  sameExcept_iff.2 (by simp [ackFrame])

/-- Settles O52: each of the two calls is the write of one cell. -/
theorem keyWriteAndFrameAcknowledge : Obligations.KeyWriteAndFrameAcknowledge :=
  fun k s => ⟨rfl, setKey_same k s, rfl, ackFrame_same s⟩

end Sys2Proof.Machine

/-! PROOFS. The statements of 60_exceptions.md: machine faults, when they are raised and what they change, and the tick of
the timers. -/

namespace Sys2Proof.Machine

/-! ### When an instruction raises a machine fault (R151) -/

/-- A key wait, fetched or resumed, never stops the core (R143). -/
theorem waitForKey_run_ne_faulted (x : Reg) (s : State) : (waitForKey x s).run ≠ .faulted := by
  cases hk : s.key with
  | none => rw [waitForKey_of_none hk]; nofun
  | some k => rw [waitForKey_of_some hk]; nofun

/-- An instruction that can fault does so where its check fails, and that is its condition of R151; every other leaves
`run` or is the key wait. -/
theorem exec_faulted_iff {i : Instr} {s t : State} (h : exec i s = .next t) (hr : s.run ≠ .faulted) :
    t.run = .faulted ↔ FaultCondition i s := by
  cases i
  case ret | call | drw | ldB | stRegs | ldRegs =>
    simp only [exec_ret_eq, exec_call_eq, exec_drw_eq, exec_ldB_eq, exec_stRegs_eq, exec_ldRegs_eq, bcdDigits_length,
      State.regsUpTo_length, regCount_eq, inSpace_rows_iff, State.inSpace_base_succ] at h
    cases h
    split
    · exact iff_of_false (by simpa using hr) (by simp only [FaultCondition]; omega)
    · exact iff_of_true rfl (by simp only [FaultCondition]; omega)
  case ldVxK x =>
    cases h
    exact iff_of_false (waitForKey_run_ne_faulted x s) id
  all_goals cases h; exact iff_of_false hr id

/-- Settles O14: every instruction answers a next state, and it has stopped exactly under the condition. -/
theorem instructionsFaultExactlyWhen : Obligations.InstructionsFaultExactlyWhen := by
  intro i s hr
  obtain ⟨t, ht⟩ := exec_answers i s
  exact ⟨t, ht, exec_faulted_iff ht hr⟩

/-! ### What a machine fault changes (R152) -/

/-- Settles O15: only a failed fetch and an executed instruction stop the core, each by a raise; the literal word that a
return records is the one fetched, since no other word decodes to it. -/
theorem machineFaultsArePrecise : Obligations.MachineFaultsArePrecise := by
  intro s t h hr ht
  cases step_cases h with
  | stopped hs => exact absurd hs hr
  | resumed _ e => exact absurd (e ▸ ht) (waitForKey_run_ne_faulted _ s)
  | fetchFault _ _ e =>
    subst e
    exact ⟨sameExcept_iff.2 (by simp), rfl, nofun, nofun, fun _ => ⟨rfl, rfl⟩, fun hc => absurd rfl hc⟩
  | undefined _ _ _ _ _ e =>
    subst e
    exact absurd ht hr
  | executed w i _ _ hd he =>
    obtain ⟨c, v, a, rfl, hnone, hload, hfetch, hv, -, -⟩ := exec_stops he hr ht
    have hword : v = w := by
      obtain rfl | ⟨rfl, rfl⟩ := hv
      · rfl
      · exact encodeOfDecodeIsTheWord w .ret hd
    exact ⟨sameExcept_iff.2 (by simp), rfl, hnone, hload, fun hc => absurd hc hfetch, fun _ => hword⟩

/-! ### The tick of the timers (R159, R160) -/

theorem tickTimers_same (s : State) : SameExcept [.delay, .sound] s (tickTimers s) :=
  sameExcept_iff.2 (by simp [tickTimers])

/-- Settles O50: a tick is one write of each timer, down by 1 unless it is at 0. -/
theorem tickTakesOneOffEachTimer : Obligations.TickTakesOneOffEachTimer :=
  fun s => ⟨tickDown_toNat s.delay, tickDown_toNat s.sound, tickTimers_same s⟩

/-- Settles O51, by induction on the number of ticks: the last one takes 1 off what the others left. -/
theorem timersCountDownToZero : Obligations.TimersCountDownToZero := by
  intro k s
  induction k with
  | zero => exact ⟨rfl, rfl, .refl _ s⟩
  | succ k ih =>
    obtain ⟨hdelay, hsound, hsame⟩ := ih
    obtain ⟨hdelay', hsound', hsame'⟩ := tickTakesOneOffEachTimer (tickTimers^[k] s)
    rw [Function.iterate_succ_apply']
    exact ⟨by omega, by omega, hsame.trans hsame'⟩

end Sys2Proof.Machine

/-! PROOFS. The statements of 70_reset_and_hazards.md: what `initialize` leaves, with a program that fits and with one that
does not. -/

namespace Sys2Proof.Machine

/-! ### The cells after a load (R26, R180, R182) -/

/-- A program that does not fit stops the reset core, and nothing of it is copied (R182). -/
theorem initializeWith_of_long {p : List Byte} (h : 3584 < p.length) (font : Font) (s : State) :
    initializeWith font p s = (s.resetCells font).raise .loadTooLarge ⟨0, 0, 0⟩ :=
  if_pos h

/-- Only memory, `run` and the cause depend on the program: the copy writes memory alone, and the rejection records
zeros, which is what a reset leaves in the record. -/
theorem resetCells_initializeWith (font : Font) (p : List Byte) (s : State) : ResetCells (initializeWith font p s) := by
  by_cases h : p.length ≤ 3584
  · rw [initializeWith_of_fits h]
    exact resetCells_reset
  · rw [initializeWith_of_long (Nat.not_le.1 h)]
    exact resetCells_reset

/-! ### Memory after the load of a program that fits (R180, R181) -/

/-- The largest program ends at the last address (R181). -/
theorem inSpace_progBase {n : Nat} (h : n ≤ 3584) : inSpace Config.progBase n = true := by
  simp only [Config.progBase_eq, inSpace_iff]
  omega

theorem initializeWith_read_program {p : List Byte} (h : p.length ≤ 3584) (font : Font) (s : State) {k : Nat}
    (hk : k < p.length) : (initializeWith font p s).mem.read (512 + k) = p[k] := by
  rw [initializeWith_of_fits h]
  exact Memory.read_writeBytes_inside (State.resetWith_mem_wf font) p Config.progBase k hk (inSpace_progBase h)

/-- Above the font and outside the program's range memory is as the reset left it. -/
theorem initializeWith_read_zero {p : List Byte} (h : p.length ≤ 3584) (font : Font) (s : State) {a : Nat} (hfont : 80 ≤ a)
    (ha : a < 512 ∨ 512 + p.length ≤ a) : (initializeWith font p s).mem.read a = 0 := by
  rw [initializeWith_of_fits h]
  exact (Memory.read_writeBytes_outside _ p Config.progBase a ha).trans (State.resetWith_read_above font hfont)

/-! ### The two outcomes of a load -/

/-- Settles O53: the reset cells, and memory range by range. -/
theorem initializeLoadsTheProgram : Obligations.InitializeLoadsTheProgram := by
  intro font p s hp
  have hrun : (initializeWith font p s).run = .running ∧ (initializeWith font p s).faultCause = .none := by
    rw [initializeWith_of_fits hp]
    exact ⟨rfl, rfl⟩
  exact ⟨resetCells_initializeWith font p s, hrun.1, hrun.2, (Inv.initializeWith font p s).memWf,
    fun a ha => initializeWith_read_font hp font s ha,
    fun a hfont ha => initializeWith_read_zero hp font s hfont (.inl ha),
    fun k hk => initializeWith_read_program hp font s hk,
    fun a ha _ => initializeWith_read_zero hp font s (by omega) (.inr ha)⟩

/-- Settles O54: the rejection is a raise from the reset cells, so memory is that of the reset and the core has stopped. -/
theorem initializeRejectsALongProgram : Obligations.InitializeRejectsALongProgram := by
  intro font p s hp
  refine ⟨resetCells_initializeWith font p s, ?_⟩
  rw [initializeWith_of_long hp]
  exact ⟨rfl, rfl, State.resetWith_mem_wf font, fun a ha => State.resetWith_read_font font ha,
    fun a ha _ => State.resetWith_read_above font ha, step_faulted rfl⟩

end Sys2Proof.Machine
